-- ==== Sys2Proof/Word.lean ====
section
/-! DEFINITION. The word types: the bit vectors whose widths the spec fixes (00_scope.md R7, R9), and bytes (R11).

`BV n` of the spec is `BitVec n`. Position `i` of the spec, counted from the FIRST and most significant bit (R9), is
`v.getMsbD i`; the spec's `++` and `XOR` are `BitVec`'s. The integer fields `cmd`, `rsel` and `STATUS` are numbered the
other way round (R14): their bit `i` is `getLsbD i`. -/

namespace Sys2Proof

/-- A byte, 0 to 255 (R11). -/
abbrev Byte := BitVec 8
/-- An operand or a result: a byte sequence that carries its own length (R11, R70). -/
abbrev Bytes := List Byte
/-- A block, a key operand, `DIN`, `DOUT`: 64 bits (R7). -/
abbrev Block := BitVec 64
/-- A data half, `L` or `R`: 32 bits (R7, R23). -/
abbrev HalfBlock := BitVec 32
/-- A key-schedule half, `C` or `D`: 28 bits (R7, R21). -/
abbrev HalfKey := BitVec 28
/-- A round key: 48 bits (R7, R22). -/
abbrev RoundKey := BitVec 48

end Sys2Proof
end

