-- ==== Sys2Proof/Config.lean ====
section
/-! DEFINITION. What an implementation fixes: the record type of the constant tables with the shape the spec gives each
(41_tables.md R101, R102), the open parameters P1 and P2 of 92_eei_decisions.md, and the free values.

The shape constraints are carried by the types, so that an ill-shaped table cannot be built and no look-up needs a
run-time case (60_exceptions.md R192). The standard contents are `Sys2Proof.Machine.tables`, in Machine/Tables.lean. -/

namespace Sys2Proof

/-- A permutation table from `n` input bits to `m` output bits: `m` source-bit indices in the standard's 1-based
numbering, in reading order (R100, R102). -/
structure PermTable (m n : Nat) where
  entries : List Nat
  length_eq : entries.length = m
  inRange : ∀ t ∈ entries, 1 ≤ t ∧ t ≤ n
  deriving DecidableEq, Repr

/-- The source index at position `i` of a permutation table, still 1-based: the spec's `T[i]`. -/
def PermTable.at {m n : Nat} (T : PermTable m n) (i : Fin m) : Nat :=
  T.entries[i.val]'(by rw [T.length_eq]; exact i.isLt)

/-- The schedule of rotation amounts: sixteen entries, each 1 or 2 (R102). -/
structure ShiftTable where
  amounts : List Nat
  length_eq : amounts.length = 16
  oneOrTwo : ∀ s ∈ amounts, s = 1 ∨ s = 2
  deriving DecidableEq, Repr

/-- `LEFT_SHIFTS[i]`, the rotation amount of round `i + 1`. -/
def ShiftTable.at (T : ShiftTable) (i : Fin 16) : Nat :=
  T.amounts[i.val]'(by rw [T.length_eq]; exact i.isLt)

/-- A substitution table: 64 entries in row-major order, each 0 to 15 (R102, R110). -/
structure SBox where
  entries : List Nat
  length_eq : entries.length = 64
  inRange : ∀ t ∈ entries, t < 16
  deriving DecidableEq, Repr

/-- The entry at flat index `row * 16 + col` (R110). -/
def SBox.at (S : SBox) (i : Fin 64) : Nat :=
  S.entries[i.val]'(by rw [S.length_eq]; exact i.isLt)

/-- `TABLES`: the fifteen constants (R101). -/
structure Tables where
  pc1 : PermTable 56 64
  pc2 : PermTable 48 56
  leftShifts : ShiftTable
  ip : PermTable 64 64
  e : PermTable 48 32
  p : PermTable 32 32
  fp : PermTable 64 64
  s : Vector SBox 8
  deriving DecidableEq, Repr

/-- `FP` is the inverse of `IP` (R102, R107): `IP[FP[i] - 1] = i + 1` and `FP[IP[i] - 1] = i + 1` for every `i`. -/
def Tables.FpInvertsIp (T : Tables) : Prop :=
  ∀ i : Fin 64,
    T.ip.entries[T.fp.at i - 1]? = some (i.val + 1) ∧ T.fp.entries[T.ip.at i - 1]? = some (i.val + 1)

/-- A table that is a bijection on `1 .. n` (R102): every source index occurs, and as often as any other. -/
def PermTable.Bijective {n : Nat} (T : PermTable n n) : Prop :=
  T.entries.Nodup

/-- Open parameter P2, `FIXED_WIDTH_PORTS` (92_eei_decisions.md; 30_encoding.md R70): default false. Log 12. -/
def Config.fixedWidthPorts : Bool := false

/-- Open parameter P1, `INSTANCES` (92_eei_decisions.md; 10_state.md R43): default 1. Log 1. -/
def Config.instances : Nat := 1

/-- FREE VALUE: what a register of `w` bits holds where the spec leaves it unspecified (93_implementation_defined.md
U2). Nothing constrains it. It may depend on the engine instance (`State.freeSource`) and on what the unspecified
registers held before, and each use takes the next index of the counter `State.freeCount`. Logs 3, 21, 22. -/
opaque Config.freeValue (w source : Nat) (before : List Nat) : Nat → BitVec w

end Sys2Proof
end

