-- ==== Sys2Proof/Machine/Operands.lean ====
section
/-! DEFINITION. Bit vectors and operands: slices (00_scope.md R9), the bit codec (40_bit_codec.md), and `PERMUTE`
(41_tables.md R100). -/

namespace Sys2Proof.Machine

/-- `v[i]`: the bit at position `i`, position 0 first and most significant (R9). -/
def bitAt {n : Nat} (v : BitVec n) (i : Nat) : Bool := v.getMsbD i

/-- `v[a .. a+len-1]`: `len` positions from `a` on, in the same order (R9). -/
def slice {n : Nat} (v : BitVec n) (a len : Nat) : BitVec len := v.extractLsb' (n - a - len) len

/-- `bytesToBits` (R90): byte `i`'s bit `j`, most significant first, is position `8*i+j`; no result unless there are
exactly 8 bytes. -/
def bytesToBits : Bytes → Option Block
  | [b0, b1, b2, b3, b4, b5, b6, b7] => some (b0 ++ b1 ++ b2 ++ b3 ++ b4 ++ b5 ++ b6 ++ b7)
  | _ => none

/-- `bitsToBytes` (R91): byte `i` is `toNat(v[8*i .. 8*i+7])`. -/
def bitsToBytes (v : Block) : Bytes :=
  (List.range 8).map fun i => slice v (8 * i) 8

/-- `bitsToUnsigned`, `toNat(v)` (R92): the unsigned big-endian value. -/
def bitsToUnsigned {n : Nat} (v : BitVec n) : Nat := v.toNat

/-- `unsignedToBits`, `ofNat_n(x)` (R93): no result for `x >= 2^n`, never a truncation (log 18). -/
def unsignedToBits (x n : Nat) : Option (BitVec n) :=
  if h : x < 2 ^ n then some (BitVec.ofNatLT x h) else none

/-- `PERMUTE(T, v)` (R100): position `i` of the result is `v[T[i] - 1]`. -/
def permute {m n : Nat} (T : PermTable m n) (v : BitVec n) : BitVec m :=
  (BitVec.ofBoolListBE (T.entries.map fun t => bitAt v (t - 1))).cast (by rw [List.length_map, T.length_eq])

/-- One operand of a command as the accept step sees it (30_encoding.md R72, R74): an unused operand is not examined
(`some none`), a used one is converted, and `none` says that a used operand is not 8 bytes long. -/
def operandBits (used : Bool) (bytes : Bytes) : Option (Option Block) :=
  if used then (bytesToBits bytes).map some else some none

end Sys2Proof.Machine
end

