-- ==== Sys2Proof/Machine/KeySchedule.lean ====
section
/-! DEFINITION. The key schedule generator as pure functions of a table set (42_key_schedule.md R121 to R127). -/

namespace Sys2Proof.Machine

/-- `ROTL28(v, s)` (R123): position `i` of the result is `v[(i + s) mod 28]`. -/
def rotl28 (v : HalfKey) (s : Nat) : HalfKey := v.rotateLeft s

/-- The PC-1 permuter and its split (R121): `(C0, D0)`. -/
def initialHalves (T : Tables) (k : Block) : HalfKey × HalfKey :=
  let cd := permute T.pc1 k
  (slice cd 0 28, slice cd 28 28)

/-- The rotation of one key-schedule round (R124), round `i + 1`: both halves by the same amount. -/
def rotateHalves (T : Tables) (i : Fin 16) (cd : HalfKey × HalfKey) : HalfKey × HalfKey :=
  (rotl28 cd.1 (T.leftShifts.at i), rotl28 cd.2 (T.leftShifts.at i))

/-- The PC-2 compressor (R125): `C` first in the concatenation. -/
def compress (T : Tables) (cd : HalfKey × HalfKey) : RoundKey := permute T.pc2 (cd.1 ++ cd.2)

/-- `(Cn, Dn)`: the halves after `n` rounds, "carried forward round to round" (R126). -/
def halvesAfter (T : Tables) (k : Block) (n : Fin 17) : HalfKey × HalfKey :=
  Fin.induction (motive := fun _ => HalfKey × HalfKey) (initialHalves T k) (fun i cd => rotateHalves T i cd) n

/-- `KeySchedule(k)` (R127): round key `i` comes from the halves after round `i + 1`, "always generated in encryption
(forward) order" (R120). -/
def keySchedule (T : Tables) (k : Block) : Vector RoundKey 16 :=
  Vector.ofFn fun i => compress T (halvesAfter T k i.succ)

end Sys2Proof.Machine
end

