-- ==== Sys2Proof/Machine/RoundFunction.lean ====
section
/-! DEFINITION. The Feistel round function as a pure function of a table set (43_round_function.md R140 to R149). -/

namespace Sys2Proof.Machine

/-- The row of a group: its first and last bit, the first the more significant (R144, 92_eei_decisions.md D12). -/
def sboxRow (g : BitVec 6) : Nat := bitsToUnsigned (slice g 0 1 ++ slice g 5 1)

/-- The column of a group: its middle four bits (R144). -/
def sboxCol (g : BitVec 6) : Nat := bitsToUnsigned (slice g 1 4)

/-- The flat index is in range for every group (R146). -/
theorem sboxIndex_lt (g : BitVec 6) : sboxRow g * 16 + sboxCol g < 64 := by
  have hr : sboxRow g < 2 ^ 2 := (slice g 0 1 ++ slice g 5 1).isLt
  have hc : sboxCol g < 2 ^ 4 := (slice g 1 4).isLt
  omega

/-- The entry an S-box holds for a group: `S[row*16 + col]` (R145). -/
def sboxValue (S : SBox) (g : BitVec 6) : Nat := S.at ⟨sboxRow g * 16 + sboxCol g, sboxIndex_lt g⟩

/-- Every entry fits in four bits, so `ofNat_4` has a result (R93, R146). -/
theorem sboxValue_lt (S : SBox) (g : BitVec 6) : sboxValue S g < 2 ^ 4 :=
  S.inRange _ (List.getElem_mem _)

/-- One lane of the S-box bank (R145): `ofNat_4` of the entry. -/
def sboxLane (S : SBox) (g : BitVec 6) : BitVec 4 := BitVec.ofNatLT (sboxValue S g) (sboxValue_lt S g)

/-- Group `i` of the 48-bit sum: positions `6*i` to `6*i+5` (R143). -/
def group (x : BitVec 48) (i : Nat) : BitVec 6 := slice x (6 * i) 6

/-- The S-box bank: eight independent lanes, concatenated in group order (R147). -/
def sboxBank (T : Tables) (x : BitVec 48) : HalfBlock :=
  sboxLane T.s[0] (group x 0) ++ sboxLane T.s[1] (group x 1) ++ sboxLane T.s[2] (group x 2) ++
    sboxLane T.s[3] (group x 3) ++ sboxLane T.s[4] (group x 4) ++ sboxLane T.s[5] (group x 5) ++
    sboxLane T.s[6] (group x 6) ++ sboxLane T.s[7] (group x 7)

/-- `F(r, k)` (R149): expand, add the round key, substitute, permute. -/
def roundFunction (T : Tables) (r : HalfBlock) (k : RoundKey) : HalfBlock :=
  permute T.p (sboxBank T (permute T.e r ^^^ k))

end Sys2Proof.Machine
end

