-- ==== Sys2Proof/Machine/Driver.lean ====
section
/-! DEFINITION. The block cipher driver as pure functions of a table set (44_block_driver.md R161 to R165, R169), and
the three function-level entry points (42_key_schedule.md R127, 44_block_driver.md R169, 60_exceptions.md R191). -/

namespace Sys2Proof.Machine

/-- The IP unit and its split (R161): `(L0, R0)`. -/
def initialSplit (T : Tables) (b : Block) : HalfBlock × HalfBlock :=
  let v := permute T.ip b
  (slice v 0 32, slice v 32 32)

/-- The XOR/swap combiner, one Feistel round (R162). -/
def feistelRound (T : Tables) (lr : HalfBlock × HalfBlock) (k : RoundKey) : HalfBlock × HalfBlock :=
  (lr.2, lr.1 ^^^ roundFunction T lr.2 k)

/-- The round-key select of round `n = i + 1` (R163): `16 - n` in reverse order, `n - 1` forward; always 0 to 15. -/
def roundKeyIndex (i : Fin 16) (rev : Bool) : Fin 16 :=
  let n := i.val + 1
  ⟨if rev then 16 - n else n - 1, by split <;> omega⟩

/-- `(Ln, Rn)`: the halves after `n` rounds. -/
def roundsAfter (T : Tables) (b : Block) (K : Vector RoundKey 16) (rev : Bool) (n : Fin 17) : HalfBlock × HalfBlock :=
  Fin.induction (motive := fun _ => HalfBlock × HalfBlock) (initialSplit T b)
    (fun i lr => feistelRound T lr K[roundKeyIndex i rev]) n

/-- The final swap and the FP unit (R164, R165): `PERMUTE(FP, R16 ++ L16)`. -/
def finalPermutation (T : Tables) (lr : HalfBlock × HalfBlock) : Block := permute T.fp (lr.2 ++ lr.1)

/-- `Crypt(b, K, rev)` (R169). -/
def crypt (T : Tables) (b : Block) (K : Vector RoundKey 16) (rev : Bool) : Block :=
  finalPermutation T (roundsAfter T b K rev 16)

/-- The document's error of the entry points (R191). -/
inductive EntryError where
  | invalidInputLength
  deriving DecidableEq, Repr

/-- `bytesToBits`, or the entry points' error (R90, R191). -/
def sizedBits (b : Bytes) : Except EntryError Block :=
  match bytesToBits b with
  | some v => .ok v
  | none => .error .invalidInputLength

/-- `generateRoundKeys(key)` (R127, R191). -/
def generateRoundKeys (T : Tables) (key : Bytes) : Except EntryError (Vector RoundKey 16) :=
  match sizedBits key with
  | .error err => .error err
  | .ok k => .ok (keySchedule T k)

/-- The one implementation behind both directions, "parameterized only by round-key order" (R160, R169). -/
def cryptBlock (T : Tables) (rev : Bool) (block key : Bytes) : Except EntryError Bytes :=
  match sizedBits key, sizedBits block with
  | .ok k, .ok b => .ok (bitsToBytes (crypt T b (keySchedule T k) rev))
  | .error err, _ => .error err
  | .ok _, .error err => .error err

/-- `encryptBlock(plaintext, key)` (R169). -/
def encryptBlock (T : Tables) (plaintext key : Bytes) : Except EntryError Bytes := cryptBlock T false plaintext key

/-- `decryptBlock(ciphertext, key)` (R169). -/
def decryptBlock (T : Tables) (ciphertext key : Bytes) : Except EntryError Bytes := cryptBlock T true ciphertext key

end Sys2Proof.Machine
end

