-- ==== Sys2Proof/Syntax.lean ====
section
/-! DEFINITION. The instructions: one constructor for each row of spec/opcode_table.json.

A command carries both operands, used or not: "every command has the same three parts, and a command that does not use
an operand ignores it" (30_encoding.md R70). A read carries its index where it has one (R78). A sequencer step has no
operands (R83). -/

namespace Sys2Proof

/-- An instruction: a host command (R73), a host read (R78) or a sequencer step (R83). -/
inductive Instr where
  /-- `NOP`, cmd 000 (R76). -/
  | nop (key data : Bytes)
  /-- Reserved command encoding 001 (R75). -/
  | reserved001 (key data : Bytes)
  /-- `CRYPTF`, cmd 010 (44_block_driver.md R168). -/
  | cryptf (key data : Bytes)
  /-- `CRYPTR`, cmd 011 (R168). -/
  | cryptr (key data : Bytes)
  /-- `KEYGEN`, cmd 100 (42_key_schedule.md R128). -/
  | keygen (key data : Bytes)
  /-- Reserved command encoding 101 (R75). -/
  | reserved101 (key data : Bytes)
  /-- `ENCRYPT`, cmd 110 (44_block_driver.md R166). -/
  | encrypt (key data : Bytes)
  /-- `DECRYPT`, cmd 111 (R167). -/
  | decrypt (key data : Bytes)
  /-- `RDRK k`, rsel 0kkkk (30_encoding.md R81). -/
  | rdrk (k : Fin 16)
  /-- `RDOUT`, rsel 10000 (R80). -/
  | rdout
  /-- `RDSTAT`, rsel 10001 (R79). -/
  | rdstat
  /-- Reserved read selects 18 to 31 (R82), one constructor a row. -/
  | reservedRsel18
  | reservedRsel19
  | reservedRsel20
  | reservedRsel21
  | reservedRsel22
  | reservedRsel23
  | reservedRsel24
  | reservedRsel25
  | reservedRsel26
  | reservedRsel27
  | reservedRsel28
  | reservedRsel29
  | reservedRsel30
  | reservedRsel31
  /-- `KS_STEP`, phase 001 (42_key_schedule.md R129). -/
  | ksStep
  /-- `LD_STEP`, phase 010 (44_block_driver.md R171). -/
  | ldStep
  /-- `RND_STEP`, phase 011 (R172). -/
  | rndStep
  /-- `FIN_STEP`, phase 100 (R173). -/
  | finStep
  deriving DecidableEq, Repr

end Sys2Proof
end

