-- ==== Sys2Proof/WellFormed.lean ====
section
/-! DEFINITION. Which instructions the host can present. Every operand of any length is well formed on the engine's
command port (30_encoding.md R70); on a realisation with fixed 64-bit operand buses (open parameter P2) only 8-byte
operands are. The index of `RDRK` is 0 to 15 by its type (20_memory.md R55). -/

namespace Sys2Proof

/-- The two operands a command carries; a read and a sequencer step carry none. -/
def Instr.operands : Instr → Option (Bytes × Bytes)
  | .nop key data | .reserved001 key data | .cryptf key data | .cryptr key data => some (key, data)
  | .keygen key data | .reserved101 key data | .encrypt key data | .decrypt key data => some (key, data)
  | .rdrk _ | .rdout | .rdstat => none
  | .reservedRsel18 | .reservedRsel19 | .reservedRsel20 | .reservedRsel21 | .reservedRsel22 => none
  | .reservedRsel23 | .reservedRsel24 | .reservedRsel25 | .reservedRsel26 | .reservedRsel27 => none
  | .reservedRsel28 | .reservedRsel29 | .reservedRsel30 | .reservedRsel31 => none
  | .ksStep | .ldStep | .rndStep | .finStep => none

/-- Well-formedness under a given setting of `FIXED_WIDTH_PORTS`: "when true, `len(key) = len(data) = 8` always"
(92_eei_decisions.md P2). -/
def Instr.wfOn (fixedWidth : Bool) (i : Instr) : Bool :=
  match i.operands with
  | none => true
  | some (key, data) => !fixedWidth || (key.length == 8 && data.length == 8)

/-- Well-formedness under the model's setting. -/
def Instr.wf (i : Instr) : Bool := i.wfOn Config.fixedWidthPorts

end Sys2Proof
end

