-- ==== Sys2Proof/Decode.lean ====
section
/-! DEFINITION. Encodings and their decoder.

The engine has three instruction sources, each with its own word: the command port (`cmd`, 3 bits, with its two
operands; 30_encoding.md R70, R73), the read port (`rsel`, 5 bits; R78) and the phase register (`PH`, 3 bits; R83). The
source is part of the word, since the three encodings overlap. The decoder is total: every command word and every read
select means one instruction, and a phase word that selects no step is rejected by name. -/

namespace Sys2Proof

/-- A word at one of the engine's three instruction sources. -/
inductive PortWord where
  /-- A command transfer (R70). -/
  | command (cmd : BitVec 3) (key data : Bytes)
  /-- A read (R78). -/
  | read (rsel : BitVec 5)
  /-- The phase the sequencer is in (R83). -/
  | phase (ph : BitVec 3)
  deriving DecidableEq, Repr

/-- Why a word means no instruction. -/
inductive DecodeError where
  /-- Phase 000: "In phase `IDLE` the engine takes no step of its own" (R83). -/
  | idleTakesNoStep
  /-- Phase 101, 110 or 111: reserved, unreachable (10_state.md R26, R45). -/
  | reservedPhase
  deriving DecidableEq, Repr

/-- `cmd[2]`, the field `KS`; bit 0 is the least significant (00_scope.md R14, 30_encoding.md R71). -/
def cmdKS (cmd : BitVec 3) : Bool := cmd.getLsbD 2
/-- `cmd[1]`, the field `DR` (R71). -/
def cmdDR (cmd : BitVec 3) : Bool := cmd.getLsbD 1
/-- `cmd[0]`, the field `REV` (R71). -/
def cmdREV (cmd : BitVec 3) : Bool := cmd.getLsbD 0

/-- The command map (R73): "the value of `cmd` alone selects the command". -/
def decodeCommand (cmd : BitVec 3) (key data : Bytes) : Instr :=
  match cmdKS cmd, cmdDR cmd, cmdREV cmd with
  | false, false, false => .nop key data
  | false, false, true  => .reserved001 key data
  | false, true,  false => .cryptf key data
  | false, true,  true  => .cryptr key data
  | true,  false, false => .keygen key data
  | true,  false, true  => .reserved101 key data
  | true,  true,  false => .encrypt key data
  | true,  true,  true  => .decrypt key data

/-- The read map (R78): `rsel[4] = 0` is `RDRK` with `k = rsel[3:0]`; the others are selected by `rsel[3:0]`. -/
def decodeRead (rsel : BitVec 5) : Instr :=
  match rsel.getLsbD 4 with
  | false => .rdrk ⟨(rsel.extractLsb' 0 4).toNat, (rsel.extractLsb' 0 4).isLt⟩
  | true =>
    match rsel.getLsbD 3, rsel.getLsbD 2, rsel.getLsbD 1, rsel.getLsbD 0 with
    | false, false, false, false => .rdout
    | false, false, false, true  => .rdstat
    | false, false, true,  false => .reservedRsel18
    | false, false, true,  true  => .reservedRsel19
    | false, true,  false, false => .reservedRsel20
    | false, true,  false, true  => .reservedRsel21
    | false, true,  true,  false => .reservedRsel22
    | false, true,  true,  true  => .reservedRsel23
    | true,  false, false, false => .reservedRsel24
    | true,  false, false, true  => .reservedRsel25
    | true,  false, true,  false => .reservedRsel26
    | true,  false, true,  true  => .reservedRsel27
    | true,  true,  false, false => .reservedRsel28
    | true,  true,  false, true  => .reservedRsel29
    | true,  true,  true,  false => .reservedRsel30
    | true,  true,  true,  true  => .reservedRsel31

/-- The step select (R83). -/
def decodePhase (ph : BitVec 3) : Except DecodeError Instr :=
  match ph.getLsbD 2, ph.getLsbD 1, ph.getLsbD 0 with
  | false, false, false => .error .idleTakesNoStep
  | false, false, true  => .ok .ksStep
  | false, true,  false => .ok .ldStep
  | false, true,  true  => .ok .rndStep
  | true,  false, false => .ok .finStep
  | true,  false, true | true, true, false | true, true, true => .error .reservedPhase

/-- The decoder: "this is the whole of its decoding" (R83), for each of the three sources. -/
def decode : PortWord → Except DecodeError Instr
  | .command cmd key data => .ok (decodeCommand cmd key data)
  | .read rsel => .ok (decodeRead rsel)
  | .phase ph => decodePhase ph

/-- The encoder, from the tables of R73, R78 and R83. -/
def encode : Instr → PortWord
  | .nop key data => .command 0b000#3 key data
  | .reserved001 key data => .command 0b001#3 key data
  | .cryptf key data => .command 0b010#3 key data
  | .cryptr key data => .command 0b011#3 key data
  | .keygen key data => .command 0b100#3 key data
  | .reserved101 key data => .command 0b101#3 key data
  | .encrypt key data => .command 0b110#3 key data
  | .decrypt key data => .command 0b111#3 key data
  | .rdrk k => .read (0b0#1 ++ BitVec.ofFin (w := 4) k)
  | .rdout => .read 0b10000#5
  | .rdstat => .read 0b10001#5
  | .reservedRsel18 => .read 0b10010#5
  | .reservedRsel19 => .read 0b10011#5
  | .reservedRsel20 => .read 0b10100#5
  | .reservedRsel21 => .read 0b10101#5
  | .reservedRsel22 => .read 0b10110#5
  | .reservedRsel23 => .read 0b10111#5
  | .reservedRsel24 => .read 0b11000#5
  | .reservedRsel25 => .read 0b11001#5
  | .reservedRsel26 => .read 0b11010#5
  | .reservedRsel27 => .read 0b11011#5
  | .reservedRsel28 => .read 0b11100#5
  | .reservedRsel29 => .read 0b11101#5
  | .reservedRsel30 => .read 0b11110#5
  | .reservedRsel31 => .read 0b11111#5
  | .ksStep => .phase 0b001#3
  | .ldStep => .phase 0b010#3
  | .rndStep => .phase 0b011#3
  | .finStep => .phase 0b100#3

/-- The operand of a table word: the table gives operands no bits, so they are 64 zero bits. -/
def zeroOperand : Bytes := List.replicate 8 0

/-- The port word a word of spec/opcode_table.json stands for. The table numbers the three formats from bit 0 alike and
the word does not say which format it is of; log 13 says which is taken: a 5-bit row is a read; else 0 to 7 is a
command, 8 to 31 a read. -/
def tablePortWord (nbits w : Nat) : Option PortWord :=
  if nbits ≠ 5 ∧ w < 8 then some (.command (BitVec.ofNat 3 w) zeroOperand zeroOperand)
  else if w < 32 then some (.read (BitVec.ofNat 5 w))
  else none

/-- The instruction the decoder reads from a table word. -/
def decodeTableWord (nbits w : Nat) : Option Instr :=
  match tablePortWord nbits w with
  | none => none
  | some word =>
    match decode word with
    | .ok i => some i
    | .error _ => none

end Sys2Proof
end

