-- ==== Sys2Proof/Machine/State.lean ====
section
/-! DEFINITION. The state: the engine's registers (10_state.md R20), and beside them what the host has still to do and
what it was told (00_scope.md R15, 30_encoding.md R70, R78). All plain data. -/

namespace Sys2Proof.Machine

/-- The sequencer's five legal phases (R26). -/
inductive Phase where
  | idle | ks | ld | rnd | fin
  deriving DecidableEq, Repr

/-- The error codes (60_exceptions.md R190). -/
inductive ErrorCode where
  | none | invalidInputLength | illegalCommand | keysNotValid
  deriving DecidableEq, Repr

/-- The registers of one engine instance, "and nothing else" (R20), under the spec's names. -/
structure Engine where
  /-- Left key-schedule half (R21). -/
  C : HalfKey
  /-- Right key-schedule half (R21). -/
  D : HalfKey
  /-- Round-key store (R22). -/
  RK : Vector RoundKey 16
  /-- Left data half (R23). -/
  L : HalfBlock
  /-- Right data half (R23). -/
  R : HalfBlock
  /-- The data operand as bits (R24). -/
  DIN : Block
  /-- The result block as bits (R25). -/
  DOUT : Block
  /-- Sequencer phase (R26). -/
  PH : Phase
  /-- Rounds completed in the current phase, 0 to 16 (R27). -/
  N : Fin 17
  /-- The accepted command runs the key schedule (R28). -/
  KSF : Bool
  /-- The accepted command runs the driver (R28). -/
  DRF : Bool
  /-- The accepted command takes the round keys in reverse order (R28). -/
  REVF : Bool
  /-- Round-key store valid (R31). -/
  KV : Bool
  /-- `DOUT` valid (R32). -/
  DV : Bool
  /-- The last accepted command other than `NOP` was refused (R33). -/
  ERR : Bool
  /-- Error code of that refusal (R33). -/
  ECODE : ErrorCode
  /-- Operand of that refusal: false the key, true the data (R33). -/
  EOP : Bool
  /-- Some command was refused since reset (R34). -/
  ERRS : Bool
  deriving DecidableEq, Repr

/-- One thing the host does next (70_reset_and_hazards.md R232). -/
inductive HostOp where
  /-- Present a command; held until the engine is idle (30_encoding.md R70, R72). -/
  | command (cmd : BitVec 3) (key data : Bytes)
  /-- Present a read; `RDOUT` and `RDRK` are held until the engine is idle (R78). -/
  | read (rsel : BitVec 5)
  /-- Apply the reset event (70 R220). -/
  | reset
  /-- Do nothing until the engine is idle: the host "waits" (30 R72, R84, R85). -/
  | untilIdle
  /-- Do nothing, so that the engine takes its own next step, if it has one. -/
  | pass
  deriving DecidableEq, Repr

/-- What a read returned to the host (R78). -/
inductive ReadAnswer where
  /-- `RDSTAT`: the status word (R79). -/
  | status (word : BitVec 8)
  /-- `RDOUT`: the result bytes (R80). -/
  | result (bytes : Bytes)
  /-- `RDRK k`: a round key (R81). -/
  | roundKey (key : RoundKey)
  /-- "No value" (R80 to R82, 93_implementation_defined.md U3). -/
  | noValue
  deriving DecidableEq, Repr

/-- The machine: one engine instance and its host's side of the two ports. -/
structure State where
  /-- The engine's registers. -/
  eng : Engine
  /-- MODEL's field: what the host still does, next first (log 4). -/
  port : List HostOp
  /-- MODEL's field: what the host's reads returned, newest first (log 5). -/
  answers : List ReadAnswer
  /-- MODEL's field: the next index into the free values (log 3). -/
  freeCount : Nat
  /-- MODEL's field: whose free values these are, so that two engine instances need share none (log 21). -/
  freeSource : Nat
  deriving DecidableEq, Repr

/-- Faults: there are none. The engine records errors and goes on (60_exceptions.md R193, R199); table and index
violations cannot occur and "a model must not add a fault for them" (R192). -/
inductive Fault
  deriving DecidableEq, Repr

/-- Refusals. -/
inductive Refusal where
  /-- Raised by `exec` for an instruction that has no meaning yet: none is left. Safe. -/
  | notModelled (mnemonic : String)
  /-- Raised by the four sequencer steps outside the precondition their rule states (42_key_schedule.md R129,
  44_block_driver.md R171 to R173), where no rule gives an effect. Safe; `step` never reaches it from a state that
  keeps the invariant. Log 9. -/
  | stepNotEnabled
  /-- Raised by `step` for a phase word that selects no step (30_encoding.md R83). Safe; unreachable, since `step` asks
  only for the steps of the four running phases. Log 9. -/
  | noSuchStep (why : DecodeError)
  deriving DecidableEq, Repr

/-- The registers after reset (10_state.md R39), given what the seven registers the spec leaves unspecified hold. -/
def Engine.afterReset (c d : HalfKey) (rk : Vector RoundKey 16) (l r : HalfBlock) (din dout : Block) : Engine where
  C := c
  D := d
  RK := rk
  L := l
  R := r
  DIN := din
  DOUT := dout
  PH := .idle
  N := 0
  KSF := false
  DRF := false
  REVF := false
  KV := false
  DV := false
  ERR := false
  ECODE := .none
  EOP := false
  ERRS := false

/-- The machine right after reset, with nothing presented yet. DESIGN CHOICE, unsafe: the registers R39 leaves
unspecified hold zero (log 2). -/
def State.reset : State where
  eng := Engine.afterReset 0 0 (Vector.replicate 16 0) 0 0 0 0
  port := []
  answers := []
  freeCount := 0
  freeSource := 0

end Sys2Proof.Machine
end

