-- ==== Sys2Proof/Machine/Flags.lean ====
section
/-! DEFINITION. The status word and the encodings of its fields (10_state.md R29 to R34, 60_exceptions.md R190). -/

namespace Sys2Proof.Machine

/-- The 2-bit encoding of an error code, the field `ECODE` (R190). -/
def ErrorCode.code : ErrorCode → BitVec 2
  | .none => 0b00#2
  | .invalidInputLength => 0b01#2
  | .illegalCommand => 0b10#2
  | .keysNotValid => 0b11#2

/-- `BUSY`: not stored, 1 exactly when `PH != IDLE` (R30). -/
def Engine.busy (e : Engine) : Bool := e.PH != .idle

/-- `STATUS`, bit 7 first: `ERRS EOP ECODE ERR DV KV BUSY` (R29). -/
def Engine.status (e : Engine) : BitVec 8 :=
  BitVec.ofBool e.ERRS ++ BitVec.ofBool e.EOP ++ e.ECODE.code ++ BitVec.ofBool e.ERR ++ BitVec.ofBool e.DV ++
    BitVec.ofBool e.KV ++ BitVec.ofBool e.busy

end Sys2Proof.Machine
end

