-- ==== Sys2Proof/Machine/Tables.lean ====
section
/-! DEFINITION. The one instance of `TABLES`: the contents of 41_tables.md R103 to R118, in reading order, one line of
the spec's listing a line here (log 11). -/

namespace Sys2Proof.Machine

/-- `PC1` (R103). -/
def pc1Entries : List Nat :=
  [57, 49, 41, 33, 25, 17, 9] ++
  [1, 58, 50, 42, 34, 26, 18] ++
  [10, 2, 59, 51, 43, 35, 27] ++
  [19, 11, 3, 60, 52, 44, 36] ++
  [63, 55, 47, 39, 31, 23, 15] ++
  [7, 62, 54, 46, 38, 30, 22] ++
  [14, 6, 61, 53, 45, 37, 29] ++
  [21, 13, 5, 28, 20, 12, 4]

/-- `PC2` (R104). -/
def pc2Entries : List Nat :=
  [14, 17, 11, 24, 1, 5] ++
  [3, 28, 15, 6, 21, 10] ++
  [23, 19, 12, 4, 26, 8] ++
  [16, 7, 27, 20, 13, 2] ++
  [41, 52, 31, 37, 47, 55] ++
  [30, 40, 51, 45, 33, 48] ++
  [44, 49, 39, 56, 34, 53] ++
  [46, 42, 50, 36, 29, 32]

/-- `LEFT_SHIFTS` (R105). -/
def leftShiftAmounts : List Nat :=
  [1, 1, 2, 2, 2, 2, 2, 2] ++
  [1, 2, 2, 2, 2, 2, 2, 1]

/-- `IP` (R106). -/
def ipEntries : List Nat :=
  [58, 50, 42, 34, 26, 18, 10, 2] ++
  [60, 52, 44, 36, 28, 20, 12, 4] ++
  [62, 54, 46, 38, 30, 22, 14, 6] ++
  [64, 56, 48, 40, 32, 24, 16, 8] ++
  [57, 49, 41, 33, 25, 17, 9, 1] ++
  [59, 51, 43, 35, 27, 19, 11, 3] ++
  [61, 53, 45, 37, 29, 21, 13, 5] ++
  [63, 55, 47, 39, 31, 23, 15, 7]

/-- `FP` (R107). -/
def fpEntries : List Nat :=
  [40, 8, 48, 16, 56, 24, 64, 32] ++
  [39, 7, 47, 15, 55, 23, 63, 31] ++
  [38, 6, 46, 14, 54, 22, 62, 30] ++
  [37, 5, 45, 13, 53, 21, 61, 29] ++
  [36, 4, 44, 12, 52, 20, 60, 28] ++
  [35, 3, 43, 11, 51, 19, 59, 27] ++
  [34, 2, 42, 10, 50, 18, 58, 26] ++
  [33, 1, 41, 9, 49, 17, 57, 25]

/-- `E` (R108). -/
def eEntries : List Nat :=
  [32, 1, 2, 3, 4, 5] ++
  [4, 5, 6, 7, 8, 9] ++
  [8, 9, 10, 11, 12, 13] ++
  [12, 13, 14, 15, 16, 17] ++
  [16, 17, 18, 19, 20, 21] ++
  [20, 21, 22, 23, 24, 25] ++
  [24, 25, 26, 27, 28, 29] ++
  [28, 29, 30, 31, 32, 1]

/-- `P` (R109). -/
def pEntries : List Nat :=
  [16, 7, 20, 21] ++
  [29, 12, 28, 17] ++
  [1, 15, 23, 26] ++
  [5, 18, 31, 10] ++
  [2, 8, 24, 14] ++
  [32, 27, 3, 9] ++
  [19, 13, 30, 6] ++
  [22, 11, 4, 25]

/-- `S[0]` (R111), row-major (R110). -/
def s0Entries : List Nat :=
  [14, 4, 13, 1, 2, 15, 11, 8, 3, 10, 6, 12, 5, 9, 0, 7] ++
  [0, 15, 7, 4, 14, 2, 13, 1, 10, 6, 12, 11, 9, 5, 3, 8] ++
  [4, 1, 14, 8, 13, 6, 2, 11, 15, 12, 9, 7, 3, 10, 5, 0] ++
  [15, 12, 8, 2, 4, 9, 1, 7, 5, 11, 3, 14, 10, 0, 6, 13]

/-- `S[1]` (R112), row-major (R110). -/
def s1Entries : List Nat :=
  [15, 1, 8, 14, 6, 11, 3, 4, 9, 7, 2, 13, 12, 0, 5, 10] ++
  [3, 13, 4, 7, 15, 2, 8, 14, 12, 0, 1, 10, 6, 9, 11, 5] ++
  [0, 14, 7, 11, 10, 4, 13, 1, 5, 8, 12, 6, 9, 3, 2, 15] ++
  [13, 8, 10, 1, 3, 15, 4, 2, 11, 6, 7, 12, 0, 5, 14, 9]

/-- `S[2]` (R113), row-major (R110). -/
def s2Entries : List Nat :=
  [10, 0, 9, 14, 6, 3, 15, 5, 1, 13, 12, 7, 11, 4, 2, 8] ++
  [13, 7, 0, 9, 3, 4, 6, 10, 2, 8, 5, 14, 12, 11, 15, 1] ++
  [13, 6, 4, 9, 8, 15, 3, 0, 11, 1, 2, 12, 5, 10, 14, 7] ++
  [1, 10, 13, 0, 6, 9, 8, 7, 4, 15, 14, 3, 11, 5, 2, 12]

/-- `S[3]` (R114), row-major (R110). -/
def s3Entries : List Nat :=
  [7, 13, 14, 3, 0, 6, 9, 10, 1, 2, 8, 5, 11, 12, 4, 15] ++
  [13, 8, 11, 5, 6, 15, 0, 3, 4, 7, 2, 12, 1, 10, 14, 9] ++
  [10, 6, 9, 0, 12, 11, 7, 13, 15, 1, 3, 14, 5, 2, 8, 4] ++
  [3, 15, 0, 6, 10, 1, 13, 8, 9, 4, 5, 11, 12, 7, 2, 14]

/-- `S[4]` (R115), row-major (R110). -/
def s4Entries : List Nat :=
  [2, 12, 4, 1, 7, 10, 11, 6, 8, 5, 3, 15, 13, 0, 14, 9] ++
  [14, 11, 2, 12, 4, 7, 13, 1, 5, 0, 15, 10, 3, 9, 8, 6] ++
  [4, 2, 1, 11, 10, 13, 7, 8, 15, 9, 12, 5, 6, 3, 0, 14] ++
  [11, 8, 12, 7, 1, 14, 2, 13, 6, 15, 0, 9, 10, 4, 5, 3]

/-- `S[5]` (R116), row-major (R110). -/
def s5Entries : List Nat :=
  [12, 1, 10, 15, 9, 2, 6, 8, 0, 13, 3, 4, 14, 7, 5, 11] ++
  [10, 15, 4, 2, 7, 12, 9, 5, 6, 1, 13, 14, 0, 11, 3, 8] ++
  [9, 14, 15, 5, 2, 8, 12, 3, 7, 0, 4, 10, 1, 13, 11, 6] ++
  [4, 3, 2, 12, 9, 5, 15, 10, 11, 14, 1, 7, 6, 0, 8, 13]

/-- `S[6]` (R117), row-major (R110). -/
def s6Entries : List Nat :=
  [4, 11, 2, 14, 15, 0, 8, 13, 3, 12, 9, 7, 5, 10, 6, 1] ++
  [13, 0, 11, 7, 4, 9, 1, 10, 14, 3, 5, 12, 2, 15, 8, 6] ++
  [1, 4, 11, 13, 12, 3, 7, 14, 10, 15, 6, 8, 0, 5, 9, 2] ++
  [6, 11, 13, 8, 1, 4, 10, 7, 9, 5, 0, 15, 14, 2, 3, 12]

/-- `S[7]` (R118), row-major (R110). -/
def s7Entries : List Nat :=
  [13, 2, 8, 4, 6, 15, 11, 1, 10, 9, 3, 14, 5, 0, 12, 7] ++
  [1, 15, 13, 8, 10, 3, 7, 4, 12, 5, 6, 11, 0, 14, 9, 2] ++
  [7, 11, 4, 1, 9, 12, 14, 2, 0, 6, 10, 13, 15, 3, 5, 8] ++
  [2, 1, 14, 7, 4, 10, 8, 13, 15, 12, 9, 0, 3, 5, 6, 11]

/-- The table `PC1` with its shape (R102). -/
def pc1Table : PermTable 56 64 := ⟨pc1Entries, by decide, by decide⟩

/-- The table `PC2` with its shape (R102). -/
def pc2Table : PermTable 48 56 := ⟨pc2Entries, by decide, by decide⟩

/-- The table `IP` with its shape (R102). -/
def ipTable : PermTable 64 64 := ⟨ipEntries, by decide, by decide⟩

/-- The table `FP` with its shape (R102). -/
def fpTable : PermTable 64 64 := ⟨fpEntries, by decide, by decide⟩

/-- The table `E` with its shape (R102). -/
def eTable : PermTable 48 32 := ⟨eEntries, by decide, by decide⟩

/-- The table `P` with its shape (R102). -/
def pTable : PermTable 32 32 := ⟨pEntries, by decide, by decide⟩

/-- The shift schedule with its shape (R102). -/
def leftShiftTable : ShiftTable := ⟨leftShiftAmounts, by decide, by decide⟩

/-- `S[0]` with its shape (R102). -/
def s0Table : SBox := ⟨s0Entries, by decide, by decide⟩

/-- `S[1]` with its shape (R102). -/
def s1Table : SBox := ⟨s1Entries, by decide, by decide⟩

/-- `S[2]` with its shape (R102). -/
def s2Table : SBox := ⟨s2Entries, by decide, by decide⟩

/-- `S[3]` with its shape (R102). -/
def s3Table : SBox := ⟨s3Entries, by decide, by decide⟩

/-- `S[4]` with its shape (R102). -/
def s4Table : SBox := ⟨s4Entries, by decide, by decide⟩

/-- `S[5]` with its shape (R102). -/
def s5Table : SBox := ⟨s5Entries, by decide, by decide⟩

/-- `S[6]` with its shape (R102). -/
def s6Table : SBox := ⟨s6Entries, by decide, by decide⟩

/-- `S[7]` with its shape (R102). -/
def s7Table : SBox := ⟨s7Entries, by decide, by decide⟩

/-- The standard table set (R101, 92_eei_decisions.md D1). -/
def tables : Tables where
  pc1 := pc1Table
  pc2 := pc2Table
  leftShifts := leftShiftTable
  ip := ipTable
  e := eTable
  p := pTable
  fp := fpTable
  s := #v[s0Table, s1Table, s2Table, s3Table, s4Table, s5Table, s6Table, s7Table]

end Sys2Proof.Machine
end

