-- ==== Sys2Proof/Machine/Ops.lean ====
section
/-! DEFINITION. The shared operations every instruction is built from: recording an error and clearing it again, the
accept step, the four register updates of the sequencer, and the host's side of an operation. -/

namespace Sys2Proof.Machine

/-- The outcome of an instruction or a step. -/
abbrev StepOutcome := Host.Outcome State Fault Refusal

/-! ### Errors -/

/-- The error primitive `fail(code, eop)` (60_exceptions.md R193): what an error saves and changes, and all it does. -/
def Engine.fail (e : Engine) (code : ErrorCode) (eop : Bool) : Engine :=
  { e with ERR := true, ECODE := code, EOP := eop, ERRS := true }

/-- The return to "no error" by the next command accepted without one (R200, 10_state.md R33). -/
def Engine.clearError (e : Engine) : Engine :=
  { e with ERR := false, ECODE := .none, EOP := false }

/-! ### The accept step -/

/-- The start of a command that passed every check, given the operands it uses as bits: the last branch of the accept
rule (30_encoding.md R72), with the data operand latched, then PC-1 applied to the key operand. -/
def Engine.start (T : Tables) (ks dr rev : Bool) (key data : Option Block) (e : Engine) : Engine :=
  let e := { e.clearError with KSF := ks, DRF := dr, REVF := rev }
  let e :=
    match data with
    | some b => { e with DIN := b, DV := false }
    | none => e
  match key with
  | some k =>
    { e with C := (initialHalves T k).1, D := (initialHalves T k).2, KV := false, N := 0, PH := .ks }
  | none => { e with PH := .ld }

/-- The accept step (R72): `NOP`, the reserved encodings, the length check of the key, of the data, the keys-valid
check, in this order, then the start. -/
def Engine.accept (T : Tables) (cmd : BitVec 3) (key data : Bytes) (e : Engine) : Engine :=
  if cmd = 0b000#3 then e
  else if cmd = 0b001#3 ∨ cmd = 0b101#3 then e.fail .illegalCommand false
  else
    match operandBits (cmdKS cmd) key with
    | none => e.fail .invalidInputLength false
    | some k =>
      match operandBits (cmdDR cmd) data with
      | none => e.fail .invalidInputLength true
      | some b =>
        if !cmdKS cmd && cmdDR cmd && !e.KV then e.fail .keysNotValid false
        else e.start T (cmdKS cmd) (cmdDR cmd) (cmdREV cmd) k b

/-! ### The sequencer's register updates -/

/-- `KS_STEP`, round `i + 1` (42_key_schedule.md R129): `N` is `i` before and `i + 1` after. -/
def Engine.ksRound (T : Tables) (i : Fin 16) (e : Engine) : Engine :=
  let cd := rotateHalves T i (e.C, e.D)
  let e := { e with C := cd.1, D := cd.2, RK := e.RK.set i (compress T cd), N := i.succ }
  if i.val + 1 = 16 then { e with KV := true, PH := if e.DRF then .ld else .idle } else e

/-- `LD_STEP` (44_block_driver.md R171). -/
def Engine.load (T : Tables) (e : Engine) : Engine :=
  { e with L := (initialSplit T e.DIN).1, R := (initialSplit T e.DIN).2, N := 0, PH := .rnd }

/-- `RND_STEP`, round `i + 1` (R172). -/
def Engine.rndRound (T : Tables) (i : Fin 16) (e : Engine) : Engine :=
  let lr := feistelRound T (e.L, e.R) e.RK[roundKeyIndex i e.REVF]
  let e := { e with L := lr.1, R := lr.2, N := i.succ }
  if i.val + 1 = 16 then { e with PH := .fin } else e

/-- `FIN_STEP` (R173). -/
def Engine.finish (T : Tables) (e : Engine) : Engine :=
  { e with DOUT := finalPermutation T (e.L, e.R), DV := true, PH := .idle }

/-- The round a KS or RND step performs, as its index `n - 1`: there is one while `0 <= N <= 15` (R129, R172). -/
def roundIndex (n : Fin 17) : Option (Fin 16) :=
  if h : n.val < 16 then some ⟨n.val, h⟩ else none

/-! ### The reset event -/

/-- What the seven registers hold that a reset leaves unspecified (10_state.md R39). -/
def Engine.residue (e : Engine) : List Nat :=
  [e.C.toNat, e.D.toNat, e.L.toNat, e.R.toNat, e.DIN.toNat, e.DOUT.toNat] ++ e.RK.toList.map BitVec.toNat

/-- The free value of `w` bits at index `n` of this machine: it may depend on the engine instance (R43; log 21) and on
what the unspecified registers held (70_reset_and_hazards.md R230: "unspecified rather than cleared"; log 22). -/
def State.freeValue (s : State) (w n : Nat) : BitVec w := Config.freeValue w s.freeSource s.eng.residue n

/-- The reset event (70_reset_and_hazards.md R220): the registers of 10_state.md R39, with FREE VALUES in the ones it
leaves unspecified (93 U2; log 3). Whether they keep anything of the old key or data is left open (R230; log 22), and so
is how the contents of two instances are related (R43, 20_memory.md R68; log 21). The host's own side, its remaining
operations and its answers, is not the engine's state and stays (log 20). -/
def State.applyReset (s : State) : State :=
  let n := s.freeCount
  { s with
    eng := Engine.afterReset (s.freeValue 28 n) (s.freeValue 28 (n + 1))
      (Vector.ofFn fun k : Fin 16 => s.freeValue 48 (n + 6 + k.val)) (s.freeValue 32 (n + 2))
      (s.freeValue 32 (n + 3)) (s.freeValue 64 (n + 4)) (s.freeValue 64 (n + 5))
    freeCount := n + 22 }

/-! ### The host's side of an instruction -/

/-- A command: accepted in phase `IDLE`; while busy it "has no effect" (70_reset_and_hazards.md R227; log 8). -/
def acceptCommand (cmd : BitVec 3) (key data : Bytes) (s : State) : StepOutcome :=
  if s.eng.PH = .idle then .next { s with eng := s.eng.accept tables cmd key data } else .next s

/-- Hand a read's answer to the host; no register changes (20_memory.md R58). -/
def State.answer (s : State) (a : ReadAnswer) : State := { s with answers := a :: s.answers }

/-- A read that is accepted in phase `IDLE` only (30_encoding.md R78); while busy it has no effect (R227). -/
def readWhenIdle (a : Engine → ReadAnswer) (s : State) : StepOutcome :=
  if s.eng.PH = .idle then .next (s.answer (a s.eng)) else .next s

/-- A read with a reserved select: no value, no effect (R82; log 7). -/
def readReserved (s : State) : StepOutcome := .next (s.answer .noValue)

/-- A sequencer step that performs a round: enabled in phase `ph` while `0 <= N <= 15` (42 R129, 44 R172; log 9). -/
def sequencerRound (ph : Phase) (f : Fin 16 → Engine → Engine) (s : State) : StepOutcome :=
  if s.eng.PH = ph then
    match roundIndex s.eng.N with
    | some i => .next { s with eng := f i s.eng }
    | none => .refused .stepNotEnabled
  else .refused .stepNotEnabled

end Sys2Proof.Machine
end

