-- ==== Sys2Proof/Machine/Commands.lean ====
section
/-! DEFINITION. The meanings of the eight command words (30_encoding.md R73): each is the accept step on its word. -/

namespace Sys2Proof.Machine

/-- `NOP` (R76). -/
def execNop (key data : Bytes) (s : State) : StepOutcome := acceptCommand 0b000#3 key data s

/-- Reserved encoding 001: refused with `ILLEGAL_COMMAND` (R75). -/
def execReserved001 (key data : Bytes) (s : State) : StepOutcome := acceptCommand 0b001#3 key data s

/-- `CRYPTF` (44_block_driver.md R168). -/
def execCryptf (key data : Bytes) (s : State) : StepOutcome := acceptCommand 0b010#3 key data s

/-- `CRYPTR` (44 R168). -/
def execCryptr (key data : Bytes) (s : State) : StepOutcome := acceptCommand 0b011#3 key data s

/-- `KEYGEN` (42_key_schedule.md R128). -/
def execKeygen (key data : Bytes) (s : State) : StepOutcome := acceptCommand 0b100#3 key data s

/-- Reserved encoding 101: refused with `ILLEGAL_COMMAND` (R75). -/
def execReserved101 (key data : Bytes) (s : State) : StepOutcome := acceptCommand 0b101#3 key data s

/-- `ENCRYPT` (44 R166). -/
def execEncrypt (key data : Bytes) (s : State) : StepOutcome := acceptCommand 0b110#3 key data s

/-- `DECRYPT` (44 R167). -/
def execDecrypt (key data : Bytes) (s : State) : StepOutcome := acceptCommand 0b111#3 key data s

end Sys2Proof.Machine
end

