-- ==== Sys2Proof/Machine/Reads.lean ====
section
/-! DEFINITION. The meanings of the reads (30_encoding.md R78 to R82). No read changes a register (20_memory.md R58). -/

namespace Sys2Proof.Machine

/-- `RDRK k` (R81): the round key when `KV = 1`, else no value. -/
def execRdrk (k : Fin 16) (s : State) : StepOutcome :=
  readWhenIdle (fun e => if e.KV then .roundKey e.RK[k] else .noValue) s

/-- `RDOUT` (R80): the result bytes when `DV = 1`, else no value. -/
def execRdout (s : State) : StepOutcome :=
  readWhenIdle (fun e => if e.DV then .result (bitsToBytes e.DOUT) else .noValue) s

/-- `RDSTAT` (R79): the status word, in any phase. -/
def execRdstat (s : State) : StepOutcome := .next (s.answer (.status s.eng.status))

/-- Reserved read select 18 (R82). -/
def execReservedRsel18 (s : State) : StepOutcome := readReserved s

/-- Reserved read select 19 (R82). -/
def execReservedRsel19 (s : State) : StepOutcome := readReserved s

/-- Reserved read select 20 (R82). -/
def execReservedRsel20 (s : State) : StepOutcome := readReserved s

/-- Reserved read select 21 (R82). -/
def execReservedRsel21 (s : State) : StepOutcome := readReserved s

/-- Reserved read select 22 (R82). -/
def execReservedRsel22 (s : State) : StepOutcome := readReserved s

/-- Reserved read select 23 (R82). -/
def execReservedRsel23 (s : State) : StepOutcome := readReserved s

/-- Reserved read select 24 (R82). -/
def execReservedRsel24 (s : State) : StepOutcome := readReserved s

/-- Reserved read select 25 (R82). -/
def execReservedRsel25 (s : State) : StepOutcome := readReserved s

/-- Reserved read select 26 (R82). -/
def execReservedRsel26 (s : State) : StepOutcome := readReserved s

/-- Reserved read select 27 (R82). -/
def execReservedRsel27 (s : State) : StepOutcome := readReserved s

/-- Reserved read select 28 (R82). -/
def execReservedRsel28 (s : State) : StepOutcome := readReserved s

/-- Reserved read select 29 (R82). -/
def execReservedRsel29 (s : State) : StepOutcome := readReserved s

/-- Reserved read select 30 (R82). -/
def execReservedRsel30 (s : State) : StepOutcome := readReserved s

/-- Reserved read select 31 (R82). -/
def execReservedRsel31 (s : State) : StepOutcome := readReserved s

end Sys2Proof.Machine
end

