-- ==== Sys2Proof/Machine/Sequencer.lean ====
section
/-! DEFINITION. The meanings of the sequencer's four steps (30_encoding.md R83). Each is enabled under the precondition
its rule states (log 9). -/

namespace Sys2Proof.Machine

/-- `KS_STEP` (42_key_schedule.md R129): precondition `PH = KS`, `0 <= N <= 15`. -/
def execKsStep (s : State) : StepOutcome := sequencerRound .ks (Engine.ksRound tables) s

/-- `LD_STEP` (44_block_driver.md R171): precondition `PH = LD`. -/
def execLdStep (s : State) : StepOutcome :=
  if s.eng.PH = .ld then .next { s with eng := s.eng.load tables } else .refused .stepNotEnabled

/-- `RND_STEP` (44 R172): precondition `PH = RND`, `0 <= N <= 15`. -/
def execRndStep (s : State) : StepOutcome := sequencerRound .rnd (Engine.rndRound tables) s

/-- `FIN_STEP` (44 R173): precondition `PH = FIN`, `N = 16`. -/
def execFinStep (s : State) : StepOutcome :=
  if s.eng.PH = .fin ∧ s.eng.N = 16 then .next { s with eng := s.eng.finish tables } else .refused .stepNotEnabled

end Sys2Proof.Machine
end

