-- ==== Sys2Proof/Machine/Dispatch.lean ====
section
/-! DEFINITION. One arm per instruction, each one direct call of its meaning. -/

namespace Sys2Proof.Machine

def exec (i : Instr) (s : State) : Host.Outcome State Fault Refusal :=
  match i with
  | .nop key data => Sys2Proof.Machine.execNop key data s
  | .reserved001 key data => Sys2Proof.Machine.execReserved001 key data s
  | .cryptf key data => Sys2Proof.Machine.execCryptf key data s
  | .cryptr key data => Sys2Proof.Machine.execCryptr key data s
  | .keygen key data => Sys2Proof.Machine.execKeygen key data s
  | .reserved101 key data => Sys2Proof.Machine.execReserved101 key data s
  | .encrypt key data => Sys2Proof.Machine.execEncrypt key data s
  | .decrypt key data => Sys2Proof.Machine.execDecrypt key data s
  | .rdrk k => Sys2Proof.Machine.execRdrk k s
  | .rdout => Sys2Proof.Machine.execRdout s
  | .rdstat => Sys2Proof.Machine.execRdstat s
  | .reservedRsel18 => Sys2Proof.Machine.execReservedRsel18 s
  | .reservedRsel19 => Sys2Proof.Machine.execReservedRsel19 s
  | .reservedRsel20 => Sys2Proof.Machine.execReservedRsel20 s
  | .reservedRsel21 => Sys2Proof.Machine.execReservedRsel21 s
  | .reservedRsel22 => Sys2Proof.Machine.execReservedRsel22 s
  | .reservedRsel23 => Sys2Proof.Machine.execReservedRsel23 s
  | .reservedRsel24 => Sys2Proof.Machine.execReservedRsel24 s
  | .reservedRsel25 => Sys2Proof.Machine.execReservedRsel25 s
  | .reservedRsel26 => Sys2Proof.Machine.execReservedRsel26 s
  | .reservedRsel27 => Sys2Proof.Machine.execReservedRsel27 s
  | .reservedRsel28 => Sys2Proof.Machine.execReservedRsel28 s
  | .reservedRsel29 => Sys2Proof.Machine.execReservedRsel29 s
  | .reservedRsel30 => Sys2Proof.Machine.execReservedRsel30 s
  | .reservedRsel31 => Sys2Proof.Machine.execReservedRsel31 s
  | .ksStep => Sys2Proof.Machine.execKsStep s
  | .ldStep => Sys2Proof.Machine.execLdStep s
  | .rndStep => Sys2Proof.Machine.execRndStep s
  | .finStep => Sys2Proof.Machine.execFinStep s

end Sys2Proof.Machine
end

