-- ==== Sys2Proof/Machine/Fetch.lean ====
section
/-! DEFINITION. Which action comes next: the host's next operation if the engine accepts it now, else the sequencer's
step (00_scope.md R15, 20_memory.md R61, 30_encoding.md R72, R78, R83; log 10). -/

namespace Sys2Proof.Machine

/-- The 3-bit encoding of a phase (10_state.md R26, 30_encoding.md R83). -/
def Phase.code : Phase → BitVec 3
  | .idle => 0b000#3
  | .ks => 0b001#3
  | .ld => 0b010#3
  | .rnd => 0b011#3
  | .fin => 0b100#3

/-- The action a step performs, with the state it is performed on. -/
inductive Turn where
  /-- Run the instruction of this word. -/
  | run (word : PortWord) (s : State)
  /-- Apply the reset event. -/
  | resetEvent (s : State)
  /-- Nothing moves: the engine is idle and the host does nothing. -/
  | quiet (s : State)
  deriving DecidableEq, Repr

/-- The sequencer's turn: the step its phase selects, none in `IDLE` (30_encoding.md R83). -/
def sequencerTurn (s : State) : Turn :=
  if s.eng.PH = .idle then .quiet s else .run (.phase s.eng.PH.code) s

/-- Whether a read is accepted now (R78): `RDSTAT` in any phase, `RDRK` and `RDOUT` in `IDLE`; a reserved select never
waits (R82; log 7). -/
def readAccepted (rsel : BitVec 5) (e : Engine) : Bool :=
  decide (16 < rsel.toNat) || !e.busy

/-- The action that comes next. An operation the engine does not accept now is held, and the sequencer moves. -/
def nextTurn (s : State) : Turn :=
  match s.port with
  | [] => sequencerTurn s
  | .pass :: rest => sequencerTurn { s with port := rest }
  | .reset :: rest => .resetEvent { s with port := rest }
  | .untilIdle :: rest => if s.eng.busy then sequencerTurn s else .quiet { s with port := rest }
  | .command cmd key data :: rest =>
    if s.eng.busy then sequencerTurn s else .run (.command cmd key data) { s with port := rest }
  | .read rsel :: rest =>
    if readAccepted rsel s.eng then .run (.read rsel) { s with port := rest } else sequencerTurn s

/-- Present the word of a spec/opcode_table.json row as the very next operation. Its operands are zero bits; a word that
is accepted in `IDLE` only finds the engine idle (log 14). -/
def State.present (s : State) (word : PortWord) : State :=
  match word with
  | .command cmd key data => { s with eng := { s.eng with PH := .idle }, port := .command cmd key data :: s.port }
  | .read rsel =>
    if readAccepted rsel s.eng then { s with port := .read rsel :: s.port }
    else { s with eng := { s.eng with PH := .idle }, port := .read rsel :: s.port }
  | .phase _ => s

end Sys2Proof.Machine
end

