-- ==== Sys2Proof/Machine/Step.lean ====
section
/-! DEFINITION. One step of the machine: one accept, read, reset event or sequencer step (20_memory.md R61). -/

namespace Sys2Proof.Machine

/-- One step. With nothing to do, an idle engine waits and nothing changes. -/
def step (s : State) : Host.Outcome State Fault Refusal :=
  match nextTurn s with
  | .quiet s' => .next s'
  | .resetEvent s' => .next s'.applyReset
  | .run word s' =>
    match decode word with
    | .ok i => exec i s'
    | .error why => .refused (.noSuchStep why)

/-- The state whose next step runs the instruction of a table word (log 13, log 14). -/
def State.withFetchWord (s : State) (nbits w : Nat) : State :=
  match tablePortWord nbits w with
  | some word => s.present word
  | none => s

/-- `k` steps, stopping at the first that does not answer a next state. -/
def steps : Nat → State → Host.Outcome State Fault Refusal
  | 0, s => .next s
  | k + 1, s =>
    match step s with
    | .next s' => steps k s'
    | .fault r => .fault r
    | .refused r => .refused r

end Sys2Proof.Machine
end

