-- ==== Sys2Proof/Machine/Pseudo.lean ====
section
/-! DEFINITION. The host's pseudo-operations (30_encoding.md R85): the document's three entry points as sequences of host
operations on the two ports. -/

namespace Sys2Proof.Machine

/-- `WAIT`, "repeat `RDSTAT` until `STATUS[0] = 0`": the polls that read 1 change nothing and are left out, the one that
reads 0 is made (R85; log 16). -/
def waitOps : List HostOp := [.untilIdle, .read 0b10001#5]

/-- The longest a command and its `WAIT` take: up to 34 steps of a command in progress, while this one is held
(30_encoding.md R72), then the accept, its own 34 sequencer steps (44_block_driver.md R170), the end of the wait and the
read of `STATUS`. Once all this is done and the host has nothing left to do, further steps change nothing. -/
def callBudget : Nat := 34 + 37

/-- The status word the host's `WAIT` read, once everything the host had to do is done: the `RDSTAT` was the last of
it. -/
def lastStatus (s : State) : Option (BitVec 8) :=
  match s.port, s.answers with
  | [], .status word :: _ => some word
  | _, _ => none

/-- A command and its `WAIT`; "if `STATUS[3] = 1` report the error, else" the reads, whose answers are given in order. The
error is the status word itself. No result if a step stops or the status was not read. -/
def pseudoCall (cmd : BitVec 3) (key data : Bytes) (reads : List (BitVec 5)) (s : State) :
    Option (Except (BitVec 8) (List ReadAnswer)) :=
  match steps callBudget { s with port := .command cmd key data :: waitOps } with
  | .next s1 =>
    match lastStatus s1 with
    | some word =>
      if word.getLsbD 3 then some (.error word)
      else
        match steps reads.length { s1 with port := reads.map .read } with
        | .next s2 => some (.ok (s2.answers.take reads.length).reverse)
        | .fault _ | .refused _ => none
    | none => none
  | .fault _ | .refused _ => none

/-- `generateRoundKeys(k)`: `KEYGEN key=k`, `WAIT`, then `RDRK 0` to `RDRK 15` (R85). -/
def pseudoGenerateRoundKeys (key : Bytes) (s : State) : Option (Except (BitVec 8) (List ReadAnswer)) :=
  pseudoCall 0b100#3 key [] ((List.range 16).map (BitVec.ofNat 5)) s

/-- `encryptBlock(p, k)`: `ENCRYPT key=k data=p`, `WAIT`, then `RDOUT` (R85). -/
def pseudoEncryptBlock (plaintext key : Bytes) (s : State) : Option (Except (BitVec 8) (List ReadAnswer)) :=
  pseudoCall 0b110#3 key plaintext [0b10000#5] s

/-- `decryptBlock(c, k)`: `DECRYPT key=k data=c`, `WAIT`, then `RDOUT` (R85). -/
def pseudoDecryptBlock (ciphertext key : Bytes) (s : State) : Option (Except (BitVec 8) (List ReadAnswer)) :=
  pseudoCall 0b111#3 key ciphertext [0b10000#5] s

end Sys2Proof.Machine
end

