-- ==== Sys2Proof/Machine/System.lean ====
section
/-! DEFINITION. Several engine instances (10_state.md R43, 20_memory.md R68): the product of their states, where a step is
a step of one of them. `Config.instances` of them by default (log 1). -/

namespace Sys2Proof.Machine

/-- A system of `m` engine instances, each with its own host's side. -/
abbrev System (m : Nat) := Vector State m

/-- A system of `m` instances after reset. Each has free values of its own (log 21); that they all hold the zeros of
`State.reset` is the model's choice (log 2). -/
def System.resetOf (m : Nat) : System m := Vector.ofFn fun j => { State.reset with freeSource := j.val }

/-- The system of the default number of instances after reset. -/
def System.reset : System Config.instances := System.resetOf Config.instances

/-- One step of instance `j`. -/
def stepInstance {m : Nat} (j : Fin m) (sys : System m) : Host.Outcome (System m) Fault Refusal :=
  match step sys[j] with
  | .next t => .next (sys.set j t)
  | .fault r => .fault r
  | .refused r => .refused r

/-- Steps of the instances of a schedule, in its order. -/
def stepSchedule {m : Nat} : List (Fin m) → System m → Host.Outcome (System m) Fault Refusal
  | [], sys => .next sys
  | j :: js, sys =>
    match stepInstance j sys with
    | .next sys' => stepSchedule js sys'
    | .fault r => .fault r
    | .refused r => .refused r

end Sys2Proof.Machine
end

