-- ==== Sys2Proof/Safety.lean ====
section
/-! DEFINITION. What a safe run is, in the terms the statements use: the state invariant of 10_state.md R45 (with the
clauses that make it inductive), the count of steps to completion, and what a host or the control of the engine sees. -/

namespace Sys2Proof.Machine

/-- The invariant of one engine under a table set. Clauses (a) and (b) of R45 hold by the types of `PH` and `N`. -/
structure Engine.Consistent (T : Tables) (e : Engine) : Prop where
  /-- R45 (c). -/
  roundsBelow16 : e.PH = .ks ∨ e.PH = .rnd → e.N.val ≤ 15
  /-- R45 (d). -/
  finAfter16 : e.PH = .fin → e.N = 16
  /-- R45 (e). -/
  driverPhases : e.PH = .ld ∨ e.PH = .rnd ∨ e.PH = .fin → e.DRF = true ∧ e.KV = true ∧ e.DV = false
  /-- R45 (f). -/
  ksPhase : e.PH = .ks → e.KSF = true ∧ e.KV = false
  /-- R45 (g), first part. -/
  noErrorNoCode : e.ERR = false → e.ECODE = .none ∧ e.EOP = false
  /-- R45 (g), second part. -/
  operandOnlyForLength : e.ECODE ≠ .invalidInputLength → e.EOP = false
  /-- R45 (g), third part. -/
  errorIsSticky : e.ERR = true → e.ERRS = true
  /-- R45 (i). -/
  busyWithoutError : e.PH ≠ .idle → e.ERR = false
  /-- R45 (h): in phase `KS` the halves and the entries written so far are those of one key. -/
  partialSchedule : e.PH = .ks → ∃ k : Block, (e.C, e.D) = halvesAfter T k e.N ∧
    ∀ j : Fin 16, j.val < e.N.val → e.RK[j] = (keySchedule T k)[j]
  /-- What makes (e) inductive: a command with `DR = 1` cleared `DV` at accept (R32). -/
  driverPending : e.PH = .ks → e.DRF = true → e.DV = false
  /-- R29, R31: `KV` says that the store holds the complete schedule of one key. -/
  validSchedule : e.KV = true → ∃ k : Block, e.RK = keySchedule T k
  /-- R23: in phases `RND` and `FIN` the data halves are those of the operand's first `N` rounds. -/
  driverProgress : e.PH = .rnd ∨ e.PH = .fin → (e.L, e.R) = roundsAfter T e.DIN e.RK e.REVF e.N

/-- The invariant of the machine. -/
def State.Inv (s : State) : Prop := s.eng.Consistent tables

/-- The sequencer steps an engine still takes before it is idle (R170, R229). -/
def Engine.stepsToIdle (e : Engine) : Nat :=
  match e.PH with
  | .idle => 0
  | .ks => 16 - e.N.val + if e.DRF then 18 else 0
  | .ld => 18
  | .rnd => 17 - e.N.val
  | .fin => 1

/-- The host's next operation is held while the engine is busy: there is none, or one accepted in `IDLE` only
(30_encoding.md R72, R78). -/
def waitsForIdle : List HostOp → Bool
  | [] | .command _ _ _ :: _ | .untilIdle :: _ => true
  | .read rsel :: _ => decide (rsel.toNat ≤ 16)
  | .reset :: _ | .pass :: _ => false

/-- The control part of an engine: every register that holds no key or data bits. -/
structure Control where
  PH : Phase
  N : Fin 17
  KSF : Bool
  DRF : Bool
  REVF : Bool
  KV : Bool
  DV : Bool
  ERR : Bool
  ECODE : ErrorCode
  EOP : Bool
  ERRS : Bool
  deriving DecidableEq, Repr

/-- The control part. -/
def Engine.control (e : Engine) : Control where
  PH := e.PH
  N := e.N
  KSF := e.KSF
  DRF := e.DRF
  REVF := e.REVF
  KV := e.KV
  DV := e.DV
  ERR := e.ERR
  ECODE := e.ECODE
  EOP := e.EOP
  ERRS := e.ERRS

/-- A host operation with its operand bytes blotted out, their number kept. -/
def HostOp.shape : HostOp → HostOp
  | .command cmd key data => .command cmd (key.map fun _ => 0) (data.map fun _ => 0)
  | .read rsel => .read rsel
  | .reset => .reset
  | .untilIdle => .untilIdle
  | .pass => .pass

/-- A fixed-width port can present this operation (open parameter P2). -/
def HostOp.fixedWidth : HostOp → Bool
  | .command _ key data => key.length == 8 && data.length == 8
  | .read _ | .reset | .untilIdle | .pass => true

/-- The phase transitions of 10_state.md R26. -/
def phaseMoves : List (Phase × Phase) :=
  [(.idle, .ks), (.idle, .ld), (.ks, .ks), (.ks, .ld), (.ks, .idle), (.ld, .rnd), (.rnd, .rnd), (.rnd, .fin),
    (.fin, .idle)]

/-- A safe run: every one of its `k` steps answers a next state. -/
def SafeFor (k : Nat) (s : State) : Prop := ∃ t, steps k s = .next t

end Sys2Proof.Machine
end

