-- ==== Sys2Proof/Certificates/Slice0/Obligations.lean ====
section
/-! DEFINITION. The statements for the provers. Each docstring names the rule of spec/ it formalises; where a clause
rests on the model's own choice it names the log entry. That the host is the list `port` and that one `step` is one action
is THE MODEL'S CHOICE (logs 4 and 10) wherever a statement speaks of `step` or `steps`. -/

open Sys2Proof Sys2Proof.Machine

/-! ### The bit codec and the tables -/

/-- 40_bit_codec.md R90, R91: byte `i`'s bit `j` is position `8*i+j`, both ways, and `bytesToBits` has a result for
exactly the 8-byte sequences. -/
def Obligations.CodecPlacesByteBits : Prop :=
  (∀ b : Bytes, b.length ≠ 8 → bytesToBits b = none) ∧
  (∀ b : Bytes, b.length = 8 → ∃ v, bytesToBits b = some v ∧ ∀ i < 8, ∀ j < 8,
    (bitAt v (8 * i + j)).toNat = (b.getD i 0).toNat / 2 ^ (7 - j) % 2) ∧
  (∀ v : Block, (bitsToBytes v).length = 8 ∧ ∀ i < 8,
    ((bitsToBytes v).getD i 0).toNat = ∑ j ∈ Finset.range 8, (bitAt v (8 * i + j)).toNat * 2 ^ (7 - j))

/-- R92, R93: `bitsToUnsigned` is the big-endian value, `unsignedToBits` its inverse with no result out of range; the
one call the engine makes, on an S-box entry, always has a result (R93, R202). -/
def Obligations.UnsignedCodecIsBigEndian : Prop :=
  (∀ (n : Nat) (v : BitVec n),
    bitsToUnsigned v = ∑ i ∈ Finset.range n, (bitAt v i).toNat * 2 ^ (n - 1 - i) ∧ bitsToUnsigned v < 2 ^ n) ∧
  (∀ x n : Nat, 2 ^ n ≤ x → unsignedToBits x n = none) ∧
  (∀ x n : Nat, x < 2 ^ n → ∃ w, unsignedToBits x n = some w ∧ ∀ i < n,
    (bitAt w i).toNat = x / 2 ^ (n - 1 - i) % 2) ∧
  (∀ (S : SBox) (g : BitVec 6), unsignedToBits (sboxValue S g) 4 = some (sboxLane S g))

/-- R94: the round-trip laws of both pairs, and their converses (the converses are the spec's own inference). -/
def Obligations.CodecRoundTrips : Prop :=
  (∀ b : Bytes, b.length = 8 → (bytesToBits b).map bitsToBytes = some b) ∧
  (∀ v : Block, bytesToBits (bitsToBytes v) = some v) ∧
  (∀ (n : Nat) (v : BitVec n), unsignedToBits (bitsToUnsigned v) n = some v) ∧
  (∀ x n : Nat, x < 2 ^ n → (unsignedToBits x n).map bitsToUnsigned = some x)

/-- 41_tables.md R107: in any table set whose `FP` inverts `IP` entry by entry the two permutations undo each other, and
the standard tables are one. -/
def Obligations.FinalPermutationUndoesInitial : Prop :=
  tables.FpInvertsIp ∧
  ∀ T : Tables, T.FpInvertsIp → ∀ v : Block,
    permute T.fp (permute T.ip v) = v ∧ permute T.ip (permute T.fp v) = v

/-! ### The key schedule -/

/-- 42_key_schedule.md R123: what the rotator does to every position, and its corner cases. -/
def Obligations.RotatorMovesPositions : Prop :=
  (∀ (v : HalfKey) (s : Nat), s ≤ 28 → ∀ i < 28, bitAt (rotl28 v s) i = bitAt v ((i + s) % 28)) ∧
  (∀ v : HalfKey, rotl28 v 2 = rotl28 (rotl28 v 1) 1) ∧
  (∀ v : HalfKey, (fun w => rotl28 w 1)^[28] v = v) ∧
  (∀ s : Nat, rotl28 0 s = 0 ∧ rotl28 (BitVec.allOnes 28) s = BitVec.allOnes 28) ∧
  (∀ (v : HalfKey) (s : Nat),
    (List.range 28).countP (fun i => bitAt (rotl28 v s) i) = (List.range 28).countP (fun i => bitAt v i))

/-- R122: two keys that differ only in the last bit of each byte have the same halves and round keys; at the command
port, no command tells them apart, in any state, and neither raises an error for its parity. -/
def Obligations.DroppedKeyBitsInfluenceNothing : Prop :=
  (∀ k k' : Block, (∀ i < 64, i % 8 ≠ 7 → bitAt k i = bitAt k' i) →
    initialHalves tables k = initialHalves tables k' ∧ keySchedule tables k = keySchedule tables k') ∧
  (∀ key key' : Bytes, key.length = 8 → key'.length = 8 →
    (∀ i < 8, (key.getD i 0).toNat / 2 = (key'.getD i 0).toNat / 2) →
    ∀ (cmd : BitVec 3) (data : Bytes) (s : State),
      exec (decodeCommand cmd key data) s = exec (decodeCommand cmd key' data) s) ∧
  (∀ (key data : Bytes) (s : State), key.length = 8 → s.eng.PH = .idle →
    ∃ t, exec (.keygen key data) s = .next t ∧ t.eng.ERR = false)

/-- R126: the halves after `n` rounds are `C0`, `D0` rotated by the total amount so far; after sixteen they are `C0`,
`D0` again; and a round key can be computed from the total amount directly. The spec marks R126 as its own inference. -/
def Obligations.RotationIsCumulative : Prop :=
  (∀ (k : Block) (n : Fin 17),
    halvesAfter tables k n =
      (rotl28 (initialHalves tables k).1 (tables.leftShifts.amounts.take n.val).sum,
       rotl28 (initialHalves tables k).2 (tables.leftShifts.amounts.take n.val).sum)) ∧
  (List.range 16).map (fun i => (tables.leftShifts.amounts.take (i + 1)).sum) =
    [1, 2, 4, 6, 8, 10, 12, 14, 15, 17, 19, 21, 23, 25, 27, 28] ∧
  (∀ k : Block, halvesAfter tables k 16 = initialHalves tables k) ∧
  (∀ (k : Block) (i : Fin 16),
    (keySchedule tables k)[i] =
      permute tables.pc2
        (rotl28 (initialHalves tables k).1 (tables.leftShifts.amounts.take (i.val + 1)).sum ++
         rotl28 (initialHalves tables k).2 (tables.leftShifts.amounts.take (i.val + 1)).sum))

/-- R125, last part: positions 0 to 23 of a round key depend on `Cn` only, positions 24 to 47 on `Dn` only. -/
def Obligations.RoundKeyHalvesAreSeparate : Prop :=
  ∀ c c' d d' : HalfKey,
    slice (compress tables (c, d)) 0 24 = slice (compress tables (c, d')) 0 24 ∧
    slice (compress tables (c, d)) 24 24 = slice (compress tables (c', d)) 24 24

/-- R131: a key whose 56 used bits are all equal has sixteen equal round keys, all zero or all one; the two orders then
coincide and the driver is its own inverse. The spec marks R131 as its own inference. -/
def Obligations.UniformKeyIsSelfInverse : Prop :=
  ∀ (k : Block) (x : Bool), (∀ i < 64, i % 8 ≠ 7 → bitAt k i = x) →
    (∀ j : Fin 16, (keySchedule tables k)[j] = if x then BitVec.allOnes 48 else 0) ∧
    (∀ b : Block, crypt tables b (keySchedule tables k) false = crypt tables b (keySchedule tables k) true ∧
      crypt tables (crypt tables b (keySchedule tables k) false) (keySchedule tables k) false = b)

/-! ### The round function and the driver -/

/-- 43_round_function.md R141: the expansion in closed form (the spec's own inference), its two corner cases and its
example. -/
def Obligations.ExpansionClosedForm : Prop :=
  (∀ (r : HalfBlock), ∀ i < 8, ∀ j < 6, bitAt (permute tables.e r) (6 * i + j) = bitAt r ((4 * i + j + 31) % 32)) ∧
  permute tables.e 0 = 0 ∧ permute tables.e (BitVec.allOnes 32) = BitVec.allOnes 48 ∧
  permute tables.e 0xF0AAF0AA#32 = 0x7A15557A1555#48

/-- R143 to R147: lane `i` of the S-box bank holds `ofNat_4` of entry `row*16 + col` of `S[i]`, row from the first and
last bit of group `i`, column from its middle four; the index is always below 64. -/
def Obligations.SboxLaneLooksUpItsGroup : Prop :=
  ∀ (T : Tables) (x : BitVec 48) (i : Fin 8),
    ∃ idx : Fin 64,
      idx.val =
        (2 * (bitAt x (6 * i.val)).toNat + (bitAt x (6 * i.val + 5)).toNat) * 16 +
          (8 * (bitAt x (6 * i.val + 1)).toNat + 4 * (bitAt x (6 * i.val + 2)).toNat +
            2 * (bitAt x (6 * i.val + 3)).toNat + (bitAt x (6 * i.val + 4)).toNat) ∧
      unsignedToBits (T.s[i].at idx) 4 = some (slice (sboxBank T x) (4 * i.val) 4)

/-- 44_block_driver.md R162: the two halves of one round, and that a round is invertible whatever the round function
gives. -/
def Obligations.FeistelRoundInverts : Prop :=
  ∀ (T : Tables) (Lp Rp Ln Rn : HalfBlock) (K : RoundKey), (Ln, Rn) = feistelRound T (Lp, Rp) K →
    Ln = Rp ∧ Rn = Lp ^^^ roundFunction T Rp K ∧ Rp = Ln ∧ Lp = Rn ^^^ roundFunction T Ln K

/-- R174: for every table set in which `FP` inverts `IP`, decryption undoes encryption and encryption undoes decryption,
at the entry points; and round by round the decryption runs through the encryption's halves backwards and swapped. The
law is the document's; the rest of R174 the spec marks as its own inference. -/
def Obligations.DecryptionUndoesEncryption : Prop :=
  ∀ T : Tables, T.FpInvertsIp →
    (∀ p key : Bytes, p.length = 8 → key.length = 8 →
      ∃ c, encryptBlock T p key = .ok c ∧ c.length = 8 ∧ decryptBlock T c key = .ok p) ∧
    (∀ c key : Bytes, c.length = 8 → key.length = 8 →
      ∃ p, decryptBlock T c key = .ok p ∧ p.length = 8 ∧ encryptBlock T p key = .ok c) ∧
    (∀ (b : Block) (K : Vector RoundKey 16) (m : Fin 17),
      roundsAfter T (crypt T b K false) K true m =
        ((roundsAfter T b K false m.rev).2, (roundsAfter T b K false m.rev).1))

/-- R180: complementing key and block complements the result, in either order; the round function does not see the
complement of both its arguments. The spec marks R180 as its own inference. -/
def Obligations.ComplementationHolds : Prop :=
  ∀ T : Tables,
    (∀ (r : HalfBlock) (K : RoundKey), roundFunction T (~~~r) (~~~K) = roundFunction T r K) ∧
    (∀ (b k : Block) (rev : Bool),
      crypt T (~~~b) (keySchedule T (~~~k)) rev = ~~~(crypt T b (keySchedule T k) rev))

/-- 60_exceptions.md R191, at function level: each entry point has a result for 8-byte operands and the error
`InvalidInputLength` for every other length. -/
def Obligations.EntryPointsCheckLengths : Prop :=
  ∀ (T : Tables) (rev : Bool) (block key : Bytes),
    ((key.length = 8 ∧ block.length = 8 → ∃ out, cryptBlock T rev block key = .ok out ∧ out.length = 8) ∧
     (¬(key.length = 8 ∧ block.length = 8) → cryptBlock T rev block key = .error .invalidInputLength)) ∧
    ((key.length = 8 → ∃ K, generateRoundKeys T key = .ok K) ∧
     (key.length ≠ 8 → generateRoundKeys T key = .error .invalidInputLength))

/-! ### The sequencer's steps -/

/-- 42_key_schedule.md R129: `KS_STEP` in round `n = i + 1`, with everything it writes and nothing else. -/
def Obligations.KsStepPerformsOneRound : Prop :=
  ∀ (s : State) (i : Fin 16), s.eng.PH = .ks → s.eng.N = i.castSucc →
    let C' := rotl28 s.eng.C (tables.leftShifts.at i)
    let D' := rotl28 s.eng.D (tables.leftShifts.at i)
    exec .ksStep s = .next { s with eng := { s.eng with
      C := C'
      D := D'
      RK := s.eng.RK.set i.val (permute tables.pc2 (C' ++ D'))
      N := i.succ
      KV := if i.val + 1 = 16 then true else s.eng.KV
      PH := if i.val + 1 = 16 then (if s.eng.DRF then .ld else .idle) else .ks } }

/-- 44_block_driver.md R171: `LD_STEP`. -/
def Obligations.LdStepLoadsHalves : Prop :=
  ∀ s : State, s.eng.PH = .ld →
    let v := permute tables.ip s.eng.DIN
    exec .ldStep s = .next { s with eng := { s.eng with L := slice v 0 32, R := slice v 32 32, N := 0, PH := .rnd } }

/-- R172: `RND_STEP` in round `n = i + 1`, with the key index of R163; in a state that meets the invariant the entry it
reads is valid. -/
def Obligations.RndStepPerformsOneRound : Prop :=
  ∀ (s : State) (i k : Fin 16), s.eng.PH = .rnd → s.eng.N = i.castSucc →
    k.val = (if s.eng.REVF then 16 - (i.val + 1) else i.val + 1 - 1) →
    (s.Inv → s.eng.KV = true) ∧
    exec .rndStep s = .next { s with eng := { s.eng with
      L := s.eng.R
      R := s.eng.L ^^^ roundFunction tables s.eng.R s.eng.RK[k]
      N := i.succ
      PH := if i.val + 1 = 16 then .fin else .rnd } }

/-- R173: `FIN_STEP`, with the final swap of R164. -/
def Obligations.FinStepWritesResult : Prop :=
  ∀ s : State, s.eng.PH = .fin → s.eng.N = 16 →
    exec .finStep s = .next { s with eng := { s.eng with
      DOUT := permute tables.fp (s.eng.R ++ s.eng.L), DV := true, PH := .idle } }

/-- Outside the precondition its rule states (R129, R171 to R173) a sequencer step has no effect to give: the model
refuses it by name. THE MODEL'S CHOICE, log 9. -/
def Obligations.SequencerStepsStopOutsidePrecondition : Prop :=
  ∀ s : State,
    (exec .ksStep s = .refused .stepNotEnabled ↔ ¬(s.eng.PH = .ks ∧ s.eng.N.val ≤ 15)) ∧
    (exec .ldStep s = .refused .stepNotEnabled ↔ ¬(s.eng.PH = .ld)) ∧
    (exec .rndStep s = .refused .stepNotEnabled ↔ ¬(s.eng.PH = .rnd ∧ s.eng.N.val ≤ 15)) ∧
    (exec .finStep s = .refused .stepNotEnabled ↔ ¬(s.eng.PH = .fin ∧ s.eng.N = 16))

/-! ### The commands -/

/-- 30_encoding.md R76: `NOP`, accepted in phase `IDLE`, changes no register, whatever its operands. -/
def Obligations.NopChangesNothing : Prop :=
  ∀ (key data : Bytes) (s : State), s.eng.PH = .idle → exec (.nop key data) s = .next s

/-- R75: the reserved encodings record `ILLEGAL_COMMAND` and change nothing else. -/
def Obligations.ReservedCommandsRecordIllegal : Prop :=
  ∀ (key data : Bytes) (s : State), s.eng.PH = .idle →
    let refused : State :=
      { s with eng := { s.eng with ERR := true, ECODE := .illegalCommand, EOP := false, ERRS := true } }
    exec (.reserved001 key data) s = .next refused ∧ exec (.reserved101 key data) s = .next refused

/-- R72, 42_key_schedule.md R121, R128: an accepted `KEYGEN` splits PC-1 of its key into `C`, `D`, invalidates the store
and enters phase `KS`; its data operand is ignored. -/
def Obligations.KeygenStarts : Prop :=
  ∀ (key data : Bytes) (k : Block) (s : State), s.eng.PH = .idle → bytesToBits key = some k →
    exec (.keygen key data) s = .next { s with eng := { s.eng with
      C := slice (permute tables.pc1 k) 0 28
      D := slice (permute tables.pc1 k) 28 28
      KV := false, N := 0, PH := .ks, KSF := true, DRF := false, REVF := false
      ERR := false, ECODE := .none, EOP := false } }

/-- R72, 44_block_driver.md R166, R167: an accepted `ENCRYPT` or `DECRYPT` does the same, latches its data operand and
invalidates the result; the two differ in `REVF` only. -/
def Obligations.EncryptAndDecryptStart : Prop :=
  ∀ (key data : Bytes) (k b : Block) (s : State), s.eng.PH = .idle → bytesToBits key = some k →
    bytesToBits data = some b →
    let started (rev : Bool) : State := { s with eng := { s.eng with
      C := slice (permute tables.pc1 k) 0 28
      D := slice (permute tables.pc1 k) 28 28
      DIN := b, DV := false
      KV := false, N := 0, PH := .ks, KSF := true, DRF := true, REVF := rev
      ERR := false, ECODE := .none, EOP := false } }
    exec (.encrypt key data) s = .next (started false) ∧ exec (.decrypt key data) s = .next (started true)

/-- R72, 44 R168: with `KV = 1` an accepted `CRYPTF` or `CRYPTR` latches its data operand and enters phase `LD`; its key
operand is ignored. -/
def Obligations.CryptfAndCryptrStart : Prop :=
  ∀ (key data : Bytes) (b : Block) (s : State), s.eng.PH = .idle → s.eng.KV = true → bytesToBits data = some b →
    let started (rev : Bool) : State := { s with eng := { s.eng with
      DIN := b, DV := false, PH := .ld, KSF := false, DRF := true, REVF := rev
      ERR := false, ECODE := .none, EOP := false } }
    exec (.cryptf key data) s = .next (started false) ∧ exec (.cryptr key data) s = .next (started true)

/-- 60_exceptions.md R197: when several error conditions hold, the first in the order illegal command, key length, data
length, keys not valid is the one recorded; and a command with none of them clears the error fields and starts. -/
def Obligations.ErrorPriority : Prop :=
  ∀ (cmd : BitVec 3) (key data : Bytes) (s : State), s.eng.PH = .idle → cmd ≠ 0b000#3 →
    let illegal := cmd = 0b001#3 ∨ cmd = 0b101#3
    let badKey := cmdKS cmd = true ∧ key.length ≠ 8
    let badData := cmdDR cmd = true ∧ data.length ≠ 8
    let noKeys := cmdKS cmd = false ∧ cmdDR cmd = true ∧ s.eng.KV = false
    let recorded (code : ErrorCode) (eop : Bool) : State :=
      { s with eng := { s.eng with ERR := true, ECODE := code, EOP := eop, ERRS := true } }
    let outcome := exec (decodeCommand cmd key data) s
    (illegal → outcome = .next (recorded .illegalCommand false)) ∧
    (¬illegal → badKey → outcome = .next (recorded .invalidInputLength false)) ∧
    (¬illegal → ¬badKey → badData → outcome = .next (recorded .invalidInputLength true)) ∧
    (¬illegal → ¬badKey → ¬badData → noKeys → outcome = .next (recorded .keysNotValid false)) ∧
    (¬illegal → ¬badKey → ¬badData → ¬noKeys →
      ∃ t, outcome = .next t ∧ t.eng.ERR = false ∧ t.eng.ECODE = .none ∧ t.eng.EOP = false ∧
        t.eng.ERRS = s.eng.ERRS ∧ t.eng.PH = (if cmdKS cmd then .ks else .ld))

/-- R198, R199: whatever is refused, the state afterwards is the state before plus the four error fields. -/
def Obligations.RefusalChangesOnlyErrorFields : Prop :=
  ∀ (cmd : BitVec 3) (key data : Bytes) (s t : State), s.eng.PH = .idle → cmd ≠ 0b000#3 →
    exec (decodeCommand cmd key data) s = .next t → t.eng.ERR = true →
    t = { s with eng := { s.eng with
      ERR := true, ECODE := t.eng.ECODE, EOP := t.eng.EOP, ERRS := true } }

/-- 93_implementation_defined.md U9 (R54, R70, R74): an operand a command does not use influences nothing, in any
state. -/
def Obligations.UnusedOperandsAreIgnored : Prop :=
  ∀ (cmd : BitVec 3) (key key' data data' : Bytes) (s : State),
    (cmdKS cmd = true ∧ cmd ≠ 0b101#3 → key = key') →
    (cmdDR cmd = true → data = data') →
    exec (decodeCommand cmd key data) s = exec (decodeCommand cmd key' data') s

/-- 70_reset_and_hazards.md R227 (30 R72, R78): while busy, a command, `RDRK` or `RDOUT` has no effect; at the port it is
held and the sequencer takes its step instead. That `exec` answers the unchanged state is THE MODEL'S CHOICE, log 8. -/
def Obligations.BusyEngineHoldsHost : Prop :=
  ∀ s : State, s.eng.PH ≠ .idle →
    (∀ cmd key data, exec (decodeCommand cmd key data) s = .next s) ∧
    (∀ k, exec (.rdrk k) s = .next s) ∧ exec .rdout s = .next s ∧
    (waitsForIdle s.port = true →
      (∀ i, decode (.phase s.eng.PH.code) = .ok i → step s = exec i s) ∧
      (∀ t, step s = .next t → t.port = s.port ∧ t.answers = s.answers))

/-! ### The reads -/

/-- 30_encoding.md R81: `RDRK k` in phase `IDLE`. -/
def Obligations.RdrkReturnsRoundKey : Prop :=
  ∀ (k : Fin 16) (s : State), s.eng.PH = .idle →
    (s.eng.KV = true → exec (.rdrk k) s = .next { s with answers := .roundKey s.eng.RK[k] :: s.answers }) ∧
    (s.eng.KV = false → exec (.rdrk k) s = .next { s with answers := .noValue :: s.answers })

/-- R80: `RDOUT` in phase `IDLE`. -/
def Obligations.RdoutReturnsResult : Prop :=
  ∀ s : State, s.eng.PH = .idle →
    (s.eng.DV = true → exec .rdout s = .next { s with answers := .result (bitsToBytes s.eng.DOUT) :: s.answers }) ∧
    (s.eng.DV = false → exec .rdout s = .next { s with answers := .noValue :: s.answers })

/-- R79, 10_state.md R29, R30: `RDSTAT` in any phase returns the word whose bits are the flags. -/
def Obligations.RdstatReturnsStatus : Prop :=
  ∀ s : State, ∃ w : BitVec 8, exec .rdstat s = .next { s with answers := .status w :: s.answers } ∧
    (w.getLsbD 0 = true ↔ s.eng.PH ≠ .idle) ∧
    w.getLsbD 1 = s.eng.KV ∧ w.getLsbD 2 = s.eng.DV ∧ w.getLsbD 3 = s.eng.ERR ∧
    w.extractLsb' 4 2 = (match s.eng.ECODE with
      | .none => 0b00#2
      | .invalidInputLength => 0b01#2
      | .illegalCommand => 0b10#2
      | .keysNotValid => 0b11#2) ∧
    w.getLsbD 6 = s.eng.EOP ∧ w.getLsbD 7 = s.eng.ERRS

/-- R82: the fourteen reserved selects return no value and change no register, the error fields among them. That they
answer in every phase is THE MODEL'S CHOICE, log 7. -/
def Obligations.ReservedReadsReturnNothing : Prop :=
  ∀ (i : Instr) (s : State),
    i ∈ [Instr.reservedRsel18, .reservedRsel19, .reservedRsel20, .reservedRsel21, .reservedRsel22, .reservedRsel23,
      .reservedRsel24, .reservedRsel25, .reservedRsel26, .reservedRsel27, .reservedRsel28, .reservedRsel29,
      .reservedRsel30, .reservedRsel31] →
    exec i s = .next { s with answers := .noValue :: s.answers }

/-- 20_memory.md R58: no read changes a register, and what it returns is decided by the registers alone, so two reads
with no accept and no engine step between them return the same value. That a reserved select is answered in every phase
is THE MODEL'S CHOICE, log 7; that `RDRK` and `RDOUT` while busy answer the unchanged state is THE MODEL'S CHOICE,
log 8. -/
def Obligations.ReadsHaveNoSideEffect : Prop :=
  ∀ (rsel : BitVec 5) (e : Engine), ∃ returned : Option ReadAnswer,
    ∀ s : State, s.eng = e → exec (decodeRead rsel) s = .next { s with answers := returned.toList ++ s.answers }

/-! ### Reset -/

/-- 10_state.md R39, 70_reset_and_hazards.md R221: after reset, whatever the unspecified registers hold, `STATUS` is
zero, the engine is idle, the guarded reads return no value and `CRYPTF`, `CRYPTR` are refused with `KEYS_NOT_VALID`;
`State.reset` is one such state. Its zeros are THE MODEL'S CHOICE (log 2) and nothing here rests on them. -/
def Obligations.AfterResetNothingIsReadable : Prop :=
  (∃ c d rk l r din dout, State.reset.eng = Engine.afterReset c d rk l r din dout) ∧
  ∀ (c d : HalfKey) (rk : Vector RoundKey 16) (l r : HalfBlock) (din dout : Block) (s : State),
    s.eng = Engine.afterReset c d rk l r din dout →
    s.eng.PH = .idle ∧ s.eng.N = 0 ∧ s.eng.KSF = false ∧ s.eng.DRF = false ∧ s.eng.REVF = false ∧
    s.eng.KV = false ∧ s.eng.DV = false ∧ s.eng.ERR = false ∧ s.eng.ECODE = .none ∧ s.eng.EOP = false ∧
    s.eng.ERRS = false ∧
    exec .rdstat s = .next (s.answer (.status 0)) ∧
    exec .rdout s = .next (s.answer .noValue) ∧
    (∀ k, exec (.rdrk k) s = .next (s.answer .noValue)) ∧
    (∀ key data, data.length = 8 →
      exec (.cryptf key data) s = .next { s with eng := s.eng.fail .keysNotValid false } ∧
      exec (.cryptr key data) s = .next { s with eng := s.eng.fail .keysNotValid false })

/-- 70 R220: the reset event, in any phase, cannot be refused and leaves the control registers as R39 says; the host's
other operations stay (THE MODEL'S CHOICE, log 20). Nothing is said of the seven unspecified registers. -/
def Obligations.ResetEventInAnyPhase : Prop :=
  ∀ (s : State) (rest : List HostOp), s.port = .reset :: rest →
    ∃ t, step s = .next t ∧ t.eng.PH = .idle ∧ t.eng.N = 0 ∧ t.eng.KSF = false ∧ t.eng.DRF = false ∧
      t.eng.REVF = false ∧ t.eng.KV = false ∧ t.eng.DV = false ∧ t.eng.ERR = false ∧ t.eng.ECODE = .none ∧
      t.eng.EOP = false ∧ t.eng.ERRS = false ∧ t.port = rest ∧ t.answers = s.answers

/-! ### The invariant and the rules about every step -/

/-- 10_state.md R45: the invariant holds after reset, whatever the unspecified registers hold. -/
def Obligations.InvariantHoldsAfterReset : Prop :=
  ∀ (c d : HalfKey) (rk : Vector RoundKey 16) (l r : HalfBlock) (din dout : Block) (s : State),
    s.eng = Engine.afterReset c d rk l r din dout → s.Inv

/-- R45 (the spec's own inference), with the clauses that make it inductive: every step keeps the invariant. -/
def Obligations.StepKeepsInvariant : Prop :=
  ∀ s t : State, s.Inv → step s = .next t → t.Inv

/-- 60_exceptions.md R192, R198; 42 R129; 44 R170: from every state that meets the invariant the machine goes on for
ever; no step of a safe machine faults or is refused. -/
def Obligations.MachineNeverStops : Prop :=
  ∀ (s : State) (k : Nat), s.Inv → SafeFor k s

/-- 30_encoding.md R72, R78, R83: a step runs the instruction its next word decodes to; the word is the head of the
port if the engine accepts it now, else the phase's. That the host's operation goes first is THE MODEL'S CHOICE, log 10;
that a reserved select never waits, log 7. -/
def Obligations.StepRunsDecodedInstruction : Prop :=
  (∀ (s s' : State) (w : PortWord) (i : Instr), nextTurn s = .run w s' → decode w = .ok i → step s = exec i s') ∧
  (∀ (s : State) cmd key data rest, s.port = .command cmd key data :: rest → s.eng.PH = .idle →
    nextTurn s = .run (.command cmd key data) { s with port := rest }) ∧
  (∀ (s : State) rsel rest, s.port = .read rsel :: rest → s.eng.PH = .idle ∨ 17 ≤ rsel.toNat →
    nextTurn s = .run (.read rsel) { s with port := rest }) ∧
  (∀ s : State, waitsForIdle s.port = true → s.eng.PH ≠ .idle → nextTurn s = .run (.phase s.eng.PH.code) s)

/-- 10_state.md R22, 20_memory.md R56: outside the reset event a step leaves the round-key store as it is, or it is a KS
step and writes the one entry of its round. -/
def Obligations.OnlyKsStepWritesRoundKeys : Prop :=
  ∀ s t : State, step s = .next t → (∀ rest, s.port ≠ .reset :: rest) →
    t.eng.RK = s.eng.RK ∨
    (s.eng.PH = .ks ∧ ∃ (i : Fin 16) (v : RoundKey), s.eng.N = i.castSucc ∧ t.eng.RK = s.eng.RK.set i.val v)

/-- R31: what may change `KV`, and how. -/
def Obligations.KeysValidWriters : Prop :=
  ∀ s t : State, step s = .next t → t.eng.KV ≠ s.eng.KV →
    (t.eng.KV = false ∧ (∃ rest, s.port = .reset :: rest)) ∨
    (t.eng.KV = false ∧ s.eng.PH = .idle ∧ t.eng.PH = .ks ∧
      ∃ cmd key data rest, s.port = .command cmd key data :: rest ∧ cmdKS cmd = true) ∨
    (t.eng.KV = true ∧ s.eng.PH = .ks ∧ s.eng.N.val = 15)

/-- R25, R32: what may change `DV` and `DOUT`, and how. -/
def Obligations.DataValidWriters : Prop :=
  ∀ s t : State, step s = .next t → (∀ rest, s.port ≠ .reset :: rest) →
    (t.eng.DV ≠ s.eng.DV →
      (t.eng.DV = false ∧ s.eng.PH = .idle ∧ t.eng.PH ≠ .idle ∧ t.eng.ERR = false ∧
        ∃ cmd key data rest, s.port = .command cmd key data :: rest ∧ cmdDR cmd = true) ∨
      (t.eng.DV = true ∧ s.eng.PH = .fin)) ∧
    (t.eng.DOUT ≠ s.eng.DOUT → s.eng.PH = .fin ∧ t.eng.DV = true)

/-- R34: `ERRS` is set by every refusal, by nothing else, and cleared only by reset. -/
def Obligations.StickyErrorWriters : Prop :=
  ∀ s t : State, step s = .next t →
    ((∃ rest, s.port = .reset :: rest) → t.eng.ERRS = false) ∧
    ((∀ rest, s.port ≠ .reset :: rest) →
      (s.eng.ERRS = true → t.eng.ERRS = true) ∧
      (∀ cmd key data rest, s.port = .command cmd key data :: rest → s.eng.PH = .idle → cmd ≠ 0b000#3 →
        t.eng.ERR = true → t.eng.ERRS = true) ∧
      (t.eng.ERRS ≠ s.eng.ERRS → t.eng.ERR = true ∧ s.eng.PH = .idle ∧ t.eng.PH = .idle ∧
        ∃ cmd key data rest, s.port = .command cmd key data :: rest))

/-- R26: the only phase transitions, each with the round it happens in; none depends on a data value. -/
def Obligations.PhaseTransitions : Prop :=
  ∀ s t : State, step s = .next t → (∀ rest, s.port ≠ .reset :: rest) →
    (t.eng.PH = s.eng.PH ∨ (s.eng.PH, t.eng.PH) ∈ phaseMoves) ∧
    (s.eng.PH = .ks → t.eng.PH ≠ .ks →
      s.eng.N.val = 15 ∧ t.eng.PH = (if s.eng.DRF then .ld else .idle)) ∧
    (s.eng.PH = .rnd → t.eng.PH ≠ .rnd → s.eng.N.val = 15)

/-- 44_block_driver.md R176, 70 R231: the control registers after a step are decided by the control registers before it
and by what the host presents, its operand bytes apart: never by key or data bits. -/
def Obligations.ControlIgnoresKeyAndData : Prop :=
  ∀ s s' t t' : State, s.eng.control = s'.eng.control → s.port.map HostOp.shape = s'.port.map HostOp.shape →
    step s = .next t → step s' = .next t' →
    t.eng.control = t'.eng.control ∧ t.port.map HostOp.shape = t'.port.map HostOp.shape

/-! ### Whole commands -/

/-- 44 R170, 70 R229: a busy engine whose host waits is idle after exactly `stepsToIdle` steps, one fewer after each,
the port and the host's answers untouched; the counts are 16, 34 and 18. -/
def Obligations.EveryCommandEnds : Prop :=
  (∀ s : State, s.Inv → waitsForIdle s.port = true → ∀ m ≤ s.eng.stepsToIdle,
    ∃ t, steps m s = .next t ∧ t.eng.stepsToIdle = s.eng.stepsToIdle - m ∧ t.port = s.port ∧ t.answers = s.answers) ∧
  (∀ e : Engine, e.stepsToIdle = 0 → (e.PH = .ks ∨ e.PH = .rnd → e.N.val ≤ 15) → e.PH = .idle) ∧
  (∀ (cmd : BitVec 3) (key data : Bytes) (s t : State), s.eng.PH = .idle →
    exec (decodeCommand cmd key data) s = .next t →
    t.eng.stepsToIdle =
      if t.eng.PH = .idle then 0 else if cmdKS cmd then (if cmdDR cmd then 34 else 16) else 18)

/-- 42 R128, R130: from an idle engine, an accept and sixteen steps of `KEYGEN` leave the schedule of its key and
everything else as the rule says; `L`, `R`, `DIN`, `DOUT`, `DV`, `ERRS` are unchanged. -/
def Obligations.KeygenRun : Prop :=
  ∀ (key data : Bytes) (k : Block) (rest : List HostOp) (s : State), s.eng.PH = .idle →
    bytesToBits key = some k → s.port = .command 0b100#3 key data :: rest → waitsForIdle rest = true →
    steps 17 s = .next { s with
      port := rest
      eng := { s.eng with
        RK := keySchedule tables k, KV := true, N := 16
        C := (initialHalves tables k).1, D := (initialHalves tables k).2
        ERR := false, ECODE := .none, EOP := false, KSF := true, DRF := false, REVF := false } }

/-- 44 R166, R167, R175: from an idle engine, an accept and 34 steps of `ENCRYPT` (`DECRYPT`) leave the schedule of its
key in the store and `Crypt` of its block, in forward (reverse) order, in `DOUT`. -/
def Obligations.EncryptAndDecryptRun : Prop :=
  ∀ (rev : Bool) (key data : Bytes) (k b : Block) (rest : List HostOp) (s : State), s.eng.PH = .idle →
    bytesToBits key = some k → bytesToBits data = some b →
    s.port = .command (if rev then 0b111#3 else 0b110#3) key data :: rest → waitsForIdle rest = true →
    steps 35 s = .next { s with
      port := rest
      eng := { s.eng with
        RK := keySchedule tables k, KV := true
        DOUT := crypt tables b (keySchedule tables k) rev, DV := true
        C := (initialHalves tables k).1, D := (initialHalves tables k).2
        L := (roundsAfter tables b (keySchedule tables k) rev 16).1
        R := (roundsAfter tables b (keySchedule tables k) rev 16).2
        DIN := b, N := 16
        ERR := false, ECODE := .none, EOP := false, KSF := true, DRF := true, REVF := rev } }

/-- 44 R168, R175: from an idle engine with valid keys, an accept and 18 steps of `CRYPTF` (`CRYPTR`) leave `Crypt` of
its block under the stored keys, in forward (reverse) order, in `DOUT`; `RK`, `KV`, `C`, `D` are unchanged. -/
def Obligations.CryptfAndCryptrRun : Prop :=
  ∀ (rev : Bool) (key data : Bytes) (b : Block) (rest : List HostOp) (s : State), s.eng.PH = .idle →
    s.eng.KV = true → bytesToBits data = some b →
    s.port = .command (if rev then 0b011#3 else 0b010#3) key data :: rest → waitsForIdle rest = true →
    steps 19 s = .next { s with
      port := rest
      eng := { s.eng with
        DOUT := crypt tables b s.eng.RK rev, DV := true
        L := (roundsAfter tables b s.eng.RK rev 16).1
        R := (roundsAfter tables b s.eng.RK rev 16).2
        DIN := b, N := 16
        ERR := false, ECODE := .none, EOP := false, KSF := false, DRF := true, REVF := rev } }

/-- 44 R168, corner cases: `KEYGEN` followed by `CRYPTF` (`CRYPTR`) leaves the same `RK`, `KV`, `DOUT`, `DV` as
`ENCRYPT` (`DECRYPT`) with that key and block. -/
def Obligations.KeygenThenCryptEqualsOneCommand : Prop :=
  ∀ (rev : Bool) (key data other : Bytes) (s : State), s.eng.PH = .idle → key.length = 8 → data.length = 8 →
    ∃ t u,
      steps 36 { s with port :=
        [.command 0b100#3 key other, .command (if rev then 0b011#3 else 0b010#3) other data] } = .next t ∧
      steps 35 { s with port := [.command (if rev then 0b111#3 else 0b110#3) key data] } = .next u ∧
      t.eng.PH = .idle ∧ u.eng.PH = .idle ∧
      t.eng.RK = u.eng.RK ∧ t.eng.KV = u.eng.KV ∧ t.eng.DOUT = u.eng.DOUT ∧ t.eng.DV = u.eng.DV

/-- 30 R85, 44 R169, 60 R191: called on an engine that is idle or meets the invariant, the pseudo-operations
`encryptBlock` and `decryptBlock` return what the function-level entry points return, for operands of every length: the
8 bytes, or the error with `ECODE = 01`. That `WAIT` leaves out the polls that read 1 is THE MODEL'S CHOICE, log 16. -/
def Obligations.PseudoBlockCallsMatchEntryPoints : Prop :=
  ∀ (block key : Bytes) (s : State), s.eng.PH = .idle ∨ s.Inv →
    (match encryptBlock tables block key with
      | .ok out => pseudoEncryptBlock block key s = some (.ok [.result out])
      | .error .invalidInputLength =>
        ∃ w, pseudoEncryptBlock block key s = some (.error w) ∧ w.extractLsb' 4 2 = 0b01#2) ∧
    (match decryptBlock tables block key with
      | .ok out => pseudoDecryptBlock block key s = some (.ok [.result out])
      | .error .invalidInputLength =>
        ∃ w, pseudoDecryptBlock block key s = some (.error w) ∧ w.extractLsb' 4 2 = 0b01#2)

/-- 30 R81, R85, 42 R127: called on an engine that is idle or meets the invariant, the pseudo-operation
`generateRoundKeys` returns the sixteen round keys in index order, or the error with `ECODE = 01`. `WAIT` as in
log 16. -/
def Obligations.PseudoGenerateMatchesKeySchedule : Prop :=
  ∀ (key : Bytes) (s : State), s.eng.PH = .idle ∨ s.Inv →
    match generateRoundKeys tables key with
    | .ok K => pseudoGenerateRoundKeys key s = some (.ok (K.toList.map .roundKey))
    | .error .invalidInputLength =>
      ∃ w, pseudoGenerateRoundKeys key s = some (.error w) ∧ w.extractLsb' 4 2 = 0b01#2

/-- 10_state.md R40, 93 U2: what the unspecified registers hold after reset is never observed: two machines that differ
in nothing else, later resets included, give the host the same answers for ever, whatever it does. -/
def Obligations.UnspecifiedRegistersAreNeverObserved : Prop :=
  ∀ (c c' d d' : HalfKey) (rk rk' : Vector RoundKey 16) (l l' r r' : HalfBlock) (din din' dout dout' : Block)
    (port : List HostOp) (answers : List ReadAnswer) (n n' source source' k : Nat),
    ∃ t t',
      steps k ⟨Engine.afterReset c d rk l r din dout, port, answers, n, source⟩ = .next t ∧
      steps k ⟨Engine.afterReset c' d' rk' l' r' din' dout', port, answers, n', source'⟩ = .next t' ∧
      t.answers = t'.answers ∧ t.eng.status = t'.eng.status

/-- 10_state.md R43, 20_memory.md R68: a step of one instance changes no other, and steps of two instances can be taken
in either order. -/
def Obligations.InstancesAreIndependent : Prop :=
  ∀ (m : Nat) (sys : System m) (i j : Fin m), i ≠ j →
    (∀ t, stepInstance i sys = .next t → t[j] = sys[j] ∧ step sys[i] = .next t[i]) ∧
    (∀ t, stepSchedule [i, j] sys = .next t → stepSchedule [j, i] sys = .next t)

/-- 30_encoding.md R70, 92 P2: on a port that presents only 8-byte operands `INVALID_INPUT_LENGTH` is never recorded. -/
def Obligations.FixedWidthPortsMakeNoLengthError : Prop :=
  ∀ (s t : State) (k : Nat), s.port.all HostOp.fixedWidth = true → s.eng.ECODE ≠ .invalidInputLength →
    steps k s = .next t → t.eng.ECODE ≠ .invalidInputLength

/-! ### Encodings -/

/-- 30_encoding.md R73, R78, R83: decoding an encoded instruction gives it back, every operand and index included, and
a word that decodes to an instruction is that instruction's encoding. -/
def Obligations.DecodeAndEncodeAgree : Prop :=
  (∀ i : Instr, i.wf = true → decode (encode i) = .ok i) ∧
  (∀ (w : PortWord) (i : Instr), decode w = .ok i → encode i = w)

/-- R73, R78, R83, 10_state.md R26: words written out from the spec's tables, and the phase words that select no
step. -/
def Obligations.WordsFromTheTables : Prop :=
  ∀ key data : Bytes,
    decode (.command 0b100#3 key data) = .ok (.keygen key data) ∧
    decode (.command 0b111#3 key data) = .ok (.decrypt key data) ∧
    decode (.read 0b01111#5) = .ok (.rdrk 15) ∧
    decode (.read 0b10000#5) = .ok .rdout ∧
    decode (.read 0b11111#5) = .ok .reservedRsel31 ∧
    decode (.phase 0b011#3) = .ok .rndStep ∧
    decode (.phase 0b000#3) = .error .idleTakesNoStep ∧
    decode (.phase 0b110#3) = .error .reservedPhase
end

