-- ==== Sys2Proof/Laws/Bits.lean ====
section
/-! SUPPORT. Positions of bit vectors through the operations that move bits: what slices, `PERMUTE` and the loops of the
key schedule and the driver do, once each. -/

namespace Sys2Proof.Machine

/-- Two vectors with the same bit at every position are equal. -/
theorem eq_of_bitAt_eq {n : Nat} {v w : BitVec n} (h : ∀ i < n, bitAt v i = bitAt w i) : v = w :=
  BitVec.eq_of_getMsbD_eq fun i hi => h i hi

/-- Position `i` of `v[a .. a+len-1]` is position `a + i` of `v`. -/
theorem bitAt_slice {n : Nat} (v : BitVec n) (a len i : Nat) (hi : i < len) (ha : a + len ≤ n) :
    bitAt (slice v a len) i = bitAt v (a + i) := by
  simp only [bitAt, slice, BitVec.getMsbD, BitVec.getLsbD_extractLsb']
  have h1 : n - a - len + (len - 1 - i) = n - 1 - (a + i) := by omega
  have h2 : len - 1 - i < len := by omega
  have h3 : a + i < n := by omega
  simp [h1, h2, h3, hi]

/-- Position `i` of `PERMUTE(T, v)` is position `T[i] - 1` of `v` (41_tables.md R100). -/
theorem bitAt_permute {m n : Nat} (T : PermTable m n) (v : BitVec n) (i : Fin m) :
    bitAt (permute T v) i = bitAt v (T.at i - 1) := by
  have hi : i.val < T.entries.length := by rw [T.length_eq]; exact i.isLt
  rw [bitAt, permute, BitVec.getMsbD_cast, BitVec.getMsbD_ofBoolListBE]
  simp [PermTable.at, hi]

/-- A source index of a permutation table, made 0-based, is a position of its input (R102). -/
theorem PermTable.at_inRange {m n : Nat} (T : PermTable m n) (i : Fin m) : 1 ≤ T.at i ∧ T.at i ≤ n :=
  T.inRange _ (List.getElem_mem _)

/-- Only operands of exactly 8 bytes have a bit form (40_bit_codec.md R90). -/
theorem bytesToBits_isSome (b : Bytes) : (bytesToBits b).isSome = decide (b.length = 8) := by
  unfold bytesToBits
  split
  · rfl
  · rename_i h
    by_cases hb : b.length = 8
    · exfalso
      match b, hb with
      | [b0, b1, b2, b3, b4, b5, b6, b7], _ => exact h b0 b1 b2 b3 b4 b5 b6 b7 rfl
    · simp [hb]

/-- An operand the command does not use is not examined (30_encoding.md R72). -/
@[simp] theorem operandBits_unused (b : Bytes) : operandBits false b = some none := rfl

/-- A used operand is refused exactly when it is not 8 bytes long. -/
theorem operandBits_used (b : Bytes) :
    operandBits true b = if b.length = 8 then (bytesToBits b).map some else none := by
  have h := bytesToBits_isSome b
  by_cases hb : b.length = 8
  · simp [operandBits, hb]
  · simp only [hb, decide_false, Option.isSome_eq_false_iff, Option.isNone_iff_eq_none] at h
    simp [operandBits, hb, h]

@[simp] theorem halvesAfter_zero (T : Tables) (k : Block) : halvesAfter T k 0 = initialHalves T k := rfl

/-- One more key-schedule round (42_key_schedule.md R124, R126). -/
theorem halvesAfter_succ (T : Tables) (k : Block) (i : Fin 16) :
    halvesAfter T k i.succ = rotateHalves T i (halvesAfter T k i.castSucc) := rfl

/-- Round key `j` comes from the halves after round `j + 1` (R125, R127). -/
theorem keySchedule_get (T : Tables) (k : Block) (j : Fin 16) :
    (keySchedule T k)[j] = compress T (halvesAfter T k j.succ) := by
  simp [keySchedule]

@[simp] theorem roundsAfter_zero (T : Tables) (b : Block) (K : Vector RoundKey 16) (rev : Bool) :
    roundsAfter T b K rev 0 = initialSplit T b := rfl

/-- One more Feistel round (44_block_driver.md R162, R163). -/
theorem roundsAfter_succ (T : Tables) (b : Block) (K : Vector RoundKey 16) (rev : Bool) (i : Fin 16) :
    roundsAfter T b K rev i.succ = feistelRound T (roundsAfter T b K rev i.castSucc) K[roundKeyIndex i rev] := rfl

end Sys2Proof.Machine
end

