-- ==== Sys2Proof/Laws/State.lean ====
section
/-! SUPPORT. One lemma per field per named update of the state, true by unfolding the update, so that no later proof
unfolds a record update. -/

namespace Sys2Proof.Machine

/-! ### `fail` (60_exceptions.md R193) -/

@[simp] theorem Engine.fail_C (e : Engine) (code : ErrorCode) (eop : Bool) :
    (e.fail code eop).C = e.C := rfl
@[simp] theorem Engine.fail_D (e : Engine) (code : ErrorCode) (eop : Bool) :
    (e.fail code eop).D = e.D := rfl
@[simp] theorem Engine.fail_RK (e : Engine) (code : ErrorCode) (eop : Bool) :
    (e.fail code eop).RK = e.RK := rfl
@[simp] theorem Engine.fail_L (e : Engine) (code : ErrorCode) (eop : Bool) :
    (e.fail code eop).L = e.L := rfl
@[simp] theorem Engine.fail_R (e : Engine) (code : ErrorCode) (eop : Bool) :
    (e.fail code eop).R = e.R := rfl
@[simp] theorem Engine.fail_DIN (e : Engine) (code : ErrorCode) (eop : Bool) :
    (e.fail code eop).DIN = e.DIN := rfl
@[simp] theorem Engine.fail_DOUT (e : Engine) (code : ErrorCode) (eop : Bool) :
    (e.fail code eop).DOUT = e.DOUT := rfl
@[simp] theorem Engine.fail_PH (e : Engine) (code : ErrorCode) (eop : Bool) :
    (e.fail code eop).PH = e.PH := rfl
@[simp] theorem Engine.fail_N (e : Engine) (code : ErrorCode) (eop : Bool) :
    (e.fail code eop).N = e.N := rfl
@[simp] theorem Engine.fail_KSF (e : Engine) (code : ErrorCode) (eop : Bool) :
    (e.fail code eop).KSF = e.KSF := rfl
@[simp] theorem Engine.fail_DRF (e : Engine) (code : ErrorCode) (eop : Bool) :
    (e.fail code eop).DRF = e.DRF := rfl
@[simp] theorem Engine.fail_REVF (e : Engine) (code : ErrorCode) (eop : Bool) :
    (e.fail code eop).REVF = e.REVF := rfl
@[simp] theorem Engine.fail_KV (e : Engine) (code : ErrorCode) (eop : Bool) :
    (e.fail code eop).KV = e.KV := rfl
@[simp] theorem Engine.fail_DV (e : Engine) (code : ErrorCode) (eop : Bool) :
    (e.fail code eop).DV = e.DV := rfl
@[simp] theorem Engine.fail_ERR (e : Engine) (code : ErrorCode) (eop : Bool) :
    (e.fail code eop).ERR = true := rfl
@[simp] theorem Engine.fail_ECODE (e : Engine) (code : ErrorCode) (eop : Bool) :
    (e.fail code eop).ECODE = code := rfl
@[simp] theorem Engine.fail_EOP (e : Engine) (code : ErrorCode) (eop : Bool) :
    (e.fail code eop).EOP = eop := rfl
@[simp] theorem Engine.fail_ERRS (e : Engine) (code : ErrorCode) (eop : Bool) :
    (e.fail code eop).ERRS = true := rfl

/-! ### `clearError` (R200) -/

@[simp] theorem Engine.clearError_C (e : Engine) : e.clearError.C = e.C := rfl
@[simp] theorem Engine.clearError_D (e : Engine) : e.clearError.D = e.D := rfl
@[simp] theorem Engine.clearError_RK (e : Engine) : e.clearError.RK = e.RK := rfl
@[simp] theorem Engine.clearError_L (e : Engine) : e.clearError.L = e.L := rfl
@[simp] theorem Engine.clearError_R (e : Engine) : e.clearError.R = e.R := rfl
@[simp] theorem Engine.clearError_DIN (e : Engine) : e.clearError.DIN = e.DIN := rfl
@[simp] theorem Engine.clearError_DOUT (e : Engine) : e.clearError.DOUT = e.DOUT := rfl
@[simp] theorem Engine.clearError_PH (e : Engine) : e.clearError.PH = e.PH := rfl
@[simp] theorem Engine.clearError_N (e : Engine) : e.clearError.N = e.N := rfl
@[simp] theorem Engine.clearError_KSF (e : Engine) : e.clearError.KSF = e.KSF := rfl
@[simp] theorem Engine.clearError_DRF (e : Engine) : e.clearError.DRF = e.DRF := rfl
@[simp] theorem Engine.clearError_REVF (e : Engine) : e.clearError.REVF = e.REVF := rfl
@[simp] theorem Engine.clearError_KV (e : Engine) : e.clearError.KV = e.KV := rfl
@[simp] theorem Engine.clearError_DV (e : Engine) : e.clearError.DV = e.DV := rfl
@[simp] theorem Engine.clearError_ERR (e : Engine) : e.clearError.ERR = false := rfl
@[simp] theorem Engine.clearError_ECODE (e : Engine) : e.clearError.ECODE = .none := rfl
@[simp] theorem Engine.clearError_EOP (e : Engine) : e.clearError.EOP = false := rfl
@[simp] theorem Engine.clearError_ERRS (e : Engine) : e.clearError.ERRS = e.ERRS := rfl

/-! ### `load` (44_block_driver.md R171) -/

@[simp] theorem Engine.load_C (T : Tables) (e : Engine) : (e.load T).C = e.C := rfl
@[simp] theorem Engine.load_D (T : Tables) (e : Engine) : (e.load T).D = e.D := rfl
@[simp] theorem Engine.load_RK (T : Tables) (e : Engine) : (e.load T).RK = e.RK := rfl
@[simp] theorem Engine.load_L (T : Tables) (e : Engine) : (e.load T).L = (initialSplit T e.DIN).1 := rfl
@[simp] theorem Engine.load_R (T : Tables) (e : Engine) : (e.load T).R = (initialSplit T e.DIN).2 := rfl
@[simp] theorem Engine.load_DIN (T : Tables) (e : Engine) : (e.load T).DIN = e.DIN := rfl
@[simp] theorem Engine.load_DOUT (T : Tables) (e : Engine) : (e.load T).DOUT = e.DOUT := rfl
@[simp] theorem Engine.load_PH (T : Tables) (e : Engine) : (e.load T).PH = .rnd := rfl
@[simp] theorem Engine.load_N (T : Tables) (e : Engine) : (e.load T).N = 0 := rfl
@[simp] theorem Engine.load_KSF (T : Tables) (e : Engine) : (e.load T).KSF = e.KSF := rfl
@[simp] theorem Engine.load_DRF (T : Tables) (e : Engine) : (e.load T).DRF = e.DRF := rfl
@[simp] theorem Engine.load_REVF (T : Tables) (e : Engine) : (e.load T).REVF = e.REVF := rfl
@[simp] theorem Engine.load_KV (T : Tables) (e : Engine) : (e.load T).KV = e.KV := rfl
@[simp] theorem Engine.load_DV (T : Tables) (e : Engine) : (e.load T).DV = e.DV := rfl
@[simp] theorem Engine.load_ERR (T : Tables) (e : Engine) : (e.load T).ERR = e.ERR := rfl
@[simp] theorem Engine.load_ECODE (T : Tables) (e : Engine) : (e.load T).ECODE = e.ECODE := rfl
@[simp] theorem Engine.load_EOP (T : Tables) (e : Engine) : (e.load T).EOP = e.EOP := rfl
@[simp] theorem Engine.load_ERRS (T : Tables) (e : Engine) : (e.load T).ERRS = e.ERRS := rfl

/-! ### `finish` (R173) -/

@[simp] theorem Engine.finish_C (T : Tables) (e : Engine) : (e.finish T).C = e.C := rfl
@[simp] theorem Engine.finish_D (T : Tables) (e : Engine) : (e.finish T).D = e.D := rfl
@[simp] theorem Engine.finish_RK (T : Tables) (e : Engine) : (e.finish T).RK = e.RK := rfl
@[simp] theorem Engine.finish_L (T : Tables) (e : Engine) : (e.finish T).L = e.L := rfl
@[simp] theorem Engine.finish_R (T : Tables) (e : Engine) : (e.finish T).R = e.R := rfl
@[simp] theorem Engine.finish_DIN (T : Tables) (e : Engine) : (e.finish T).DIN = e.DIN := rfl
@[simp] theorem Engine.finish_DOUT (T : Tables) (e : Engine) : (e.finish T).DOUT = finalPermutation T (e.L, e.R) := rfl
@[simp] theorem Engine.finish_PH (T : Tables) (e : Engine) : (e.finish T).PH = .idle := rfl
@[simp] theorem Engine.finish_N (T : Tables) (e : Engine) : (e.finish T).N = e.N := rfl
@[simp] theorem Engine.finish_KSF (T : Tables) (e : Engine) : (e.finish T).KSF = e.KSF := rfl
@[simp] theorem Engine.finish_DRF (T : Tables) (e : Engine) : (e.finish T).DRF = e.DRF := rfl
@[simp] theorem Engine.finish_REVF (T : Tables) (e : Engine) : (e.finish T).REVF = e.REVF := rfl
@[simp] theorem Engine.finish_KV (T : Tables) (e : Engine) : (e.finish T).KV = e.KV := rfl
@[simp] theorem Engine.finish_DV (T : Tables) (e : Engine) : (e.finish T).DV = true := rfl
@[simp] theorem Engine.finish_ERR (T : Tables) (e : Engine) : (e.finish T).ERR = e.ERR := rfl
@[simp] theorem Engine.finish_ECODE (T : Tables) (e : Engine) : (e.finish T).ECODE = e.ECODE := rfl
@[simp] theorem Engine.finish_EOP (T : Tables) (e : Engine) : (e.finish T).EOP = e.EOP := rfl
@[simp] theorem Engine.finish_ERRS (T : Tables) (e : Engine) : (e.finish T).ERRS = e.ERRS := rfl

/-! ### `ksRound` (42_key_schedule.md R129): the two arms differ in `KV` and `PH` only -/

@[simp] theorem Engine.ksRound_C (T : Tables) (i : Fin 16) (e : Engine) :
    (e.ksRound T i).C = (rotateHalves T i (e.C, e.D)).1 := by
  unfold Engine.ksRound; dsimp only; split <;> rfl
@[simp] theorem Engine.ksRound_D (T : Tables) (i : Fin 16) (e : Engine) :
    (e.ksRound T i).D = (rotateHalves T i (e.C, e.D)).2 := by
  unfold Engine.ksRound; dsimp only; split <;> rfl
@[simp] theorem Engine.ksRound_RK (T : Tables) (i : Fin 16) (e : Engine) :
    (e.ksRound T i).RK = e.RK.set i (compress T (rotateHalves T i (e.C, e.D))) := by
  unfold Engine.ksRound; dsimp only; split <;> rfl
@[simp] theorem Engine.ksRound_L (T : Tables) (i : Fin 16) (e : Engine) :
    (e.ksRound T i).L = e.L := by
  unfold Engine.ksRound; dsimp only; split <;> rfl
@[simp] theorem Engine.ksRound_R (T : Tables) (i : Fin 16) (e : Engine) :
    (e.ksRound T i).R = e.R := by
  unfold Engine.ksRound; dsimp only; split <;> rfl
@[simp] theorem Engine.ksRound_DIN (T : Tables) (i : Fin 16) (e : Engine) :
    (e.ksRound T i).DIN = e.DIN := by
  unfold Engine.ksRound; dsimp only; split <;> rfl
@[simp] theorem Engine.ksRound_DOUT (T : Tables) (i : Fin 16) (e : Engine) :
    (e.ksRound T i).DOUT = e.DOUT := by
  unfold Engine.ksRound; dsimp only; split <;> rfl
@[simp] theorem Engine.ksRound_PH (T : Tables) (i : Fin 16) (e : Engine) :
    (e.ksRound T i).PH = if i.val + 1 = 16 then (if e.DRF then .ld else .idle) else e.PH := by
  unfold Engine.ksRound; dsimp only; split <;> rfl
@[simp] theorem Engine.ksRound_N (T : Tables) (i : Fin 16) (e : Engine) :
    (e.ksRound T i).N = i.succ := by
  unfold Engine.ksRound; dsimp only; split <;> rfl
@[simp] theorem Engine.ksRound_KSF (T : Tables) (i : Fin 16) (e : Engine) :
    (e.ksRound T i).KSF = e.KSF := by
  unfold Engine.ksRound; dsimp only; split <;> rfl
@[simp] theorem Engine.ksRound_DRF (T : Tables) (i : Fin 16) (e : Engine) :
    (e.ksRound T i).DRF = e.DRF := by
  unfold Engine.ksRound; dsimp only; split <;> rfl
@[simp] theorem Engine.ksRound_REVF (T : Tables) (i : Fin 16) (e : Engine) :
    (e.ksRound T i).REVF = e.REVF := by
  unfold Engine.ksRound; dsimp only; split <;> rfl
@[simp] theorem Engine.ksRound_KV (T : Tables) (i : Fin 16) (e : Engine) :
    (e.ksRound T i).KV = if i.val + 1 = 16 then true else e.KV := by
  unfold Engine.ksRound; dsimp only; split <;> rfl
@[simp] theorem Engine.ksRound_DV (T : Tables) (i : Fin 16) (e : Engine) :
    (e.ksRound T i).DV = e.DV := by
  unfold Engine.ksRound; dsimp only; split <;> rfl
@[simp] theorem Engine.ksRound_ERR (T : Tables) (i : Fin 16) (e : Engine) :
    (e.ksRound T i).ERR = e.ERR := by
  unfold Engine.ksRound; dsimp only; split <;> rfl
@[simp] theorem Engine.ksRound_ECODE (T : Tables) (i : Fin 16) (e : Engine) :
    (e.ksRound T i).ECODE = e.ECODE := by
  unfold Engine.ksRound; dsimp only; split <;> rfl
@[simp] theorem Engine.ksRound_EOP (T : Tables) (i : Fin 16) (e : Engine) :
    (e.ksRound T i).EOP = e.EOP := by
  unfold Engine.ksRound; dsimp only; split <;> rfl
@[simp] theorem Engine.ksRound_ERRS (T : Tables) (i : Fin 16) (e : Engine) :
    (e.ksRound T i).ERRS = e.ERRS := by
  unfold Engine.ksRound; dsimp only; split <;> rfl

/-! ### `rndRound` (44 R172): the two arms differ in `PH` only -/

@[simp] theorem Engine.rndRound_C (T : Tables) (i : Fin 16) (e : Engine) :
    (e.rndRound T i).C = e.C := by
  unfold Engine.rndRound; dsimp only; split <;> rfl
@[simp] theorem Engine.rndRound_D (T : Tables) (i : Fin 16) (e : Engine) :
    (e.rndRound T i).D = e.D := by
  unfold Engine.rndRound; dsimp only; split <;> rfl
@[simp] theorem Engine.rndRound_RK (T : Tables) (i : Fin 16) (e : Engine) :
    (e.rndRound T i).RK = e.RK := by
  unfold Engine.rndRound; dsimp only; split <;> rfl
@[simp] theorem Engine.rndRound_L (T : Tables) (i : Fin 16) (e : Engine) :
    (e.rndRound T i).L = (feistelRound T (e.L, e.R) e.RK[roundKeyIndex i e.REVF]).1 := by
  unfold Engine.rndRound; dsimp only; split <;> rfl
@[simp] theorem Engine.rndRound_R (T : Tables) (i : Fin 16) (e : Engine) :
    (e.rndRound T i).R = (feistelRound T (e.L, e.R) e.RK[roundKeyIndex i e.REVF]).2 := by
  unfold Engine.rndRound; dsimp only; split <;> rfl
@[simp] theorem Engine.rndRound_DIN (T : Tables) (i : Fin 16) (e : Engine) :
    (e.rndRound T i).DIN = e.DIN := by
  unfold Engine.rndRound; dsimp only; split <;> rfl
@[simp] theorem Engine.rndRound_DOUT (T : Tables) (i : Fin 16) (e : Engine) :
    (e.rndRound T i).DOUT = e.DOUT := by
  unfold Engine.rndRound; dsimp only; split <;> rfl
@[simp] theorem Engine.rndRound_PH (T : Tables) (i : Fin 16) (e : Engine) :
    (e.rndRound T i).PH = if i.val + 1 = 16 then .fin else e.PH := by
  unfold Engine.rndRound; dsimp only; split <;> rfl
@[simp] theorem Engine.rndRound_N (T : Tables) (i : Fin 16) (e : Engine) :
    (e.rndRound T i).N = i.succ := by
  unfold Engine.rndRound; dsimp only; split <;> rfl
@[simp] theorem Engine.rndRound_KSF (T : Tables) (i : Fin 16) (e : Engine) :
    (e.rndRound T i).KSF = e.KSF := by
  unfold Engine.rndRound; dsimp only; split <;> rfl
@[simp] theorem Engine.rndRound_DRF (T : Tables) (i : Fin 16) (e : Engine) :
    (e.rndRound T i).DRF = e.DRF := by
  unfold Engine.rndRound; dsimp only; split <;> rfl
@[simp] theorem Engine.rndRound_REVF (T : Tables) (i : Fin 16) (e : Engine) :
    (e.rndRound T i).REVF = e.REVF := by
  unfold Engine.rndRound; dsimp only; split <;> rfl
@[simp] theorem Engine.rndRound_KV (T : Tables) (i : Fin 16) (e : Engine) :
    (e.rndRound T i).KV = e.KV := by
  unfold Engine.rndRound; dsimp only; split <;> rfl
@[simp] theorem Engine.rndRound_DV (T : Tables) (i : Fin 16) (e : Engine) :
    (e.rndRound T i).DV = e.DV := by
  unfold Engine.rndRound; dsimp only; split <;> rfl
@[simp] theorem Engine.rndRound_ERR (T : Tables) (i : Fin 16) (e : Engine) :
    (e.rndRound T i).ERR = e.ERR := by
  unfold Engine.rndRound; dsimp only; split <;> rfl
@[simp] theorem Engine.rndRound_ECODE (T : Tables) (i : Fin 16) (e : Engine) :
    (e.rndRound T i).ECODE = e.ECODE := by
  unfold Engine.rndRound; dsimp only; split <;> rfl
@[simp] theorem Engine.rndRound_EOP (T : Tables) (i : Fin 16) (e : Engine) :
    (e.rndRound T i).EOP = e.EOP := by
  unfold Engine.rndRound; dsimp only; split <;> rfl
@[simp] theorem Engine.rndRound_ERRS (T : Tables) (i : Fin 16) (e : Engine) :
    (e.rndRound T i).ERRS = e.ERRS := by
  unfold Engine.rndRound; dsimp only; split <;> rfl

/-! ### `start`, with a key operand and without (30_encoding.md R72) -/

@[simp] theorem Engine.start_key_C (T : Tables) (ks dr rev : Bool) (b : Option Block) (k : Block) (e : Engine) :
    (e.start T ks dr rev (some k) b).C = (initialHalves T k).1 := by
  cases b <;> simp [Engine.start, Engine.clearError]
@[simp] theorem Engine.start_key_D (T : Tables) (ks dr rev : Bool) (b : Option Block) (k : Block) (e : Engine) :
    (e.start T ks dr rev (some k) b).D = (initialHalves T k).2 := by
  cases b <;> simp [Engine.start, Engine.clearError]
@[simp] theorem Engine.start_key_RK (T : Tables) (ks dr rev : Bool) (b : Option Block) (k : Block) (e : Engine) :
    (e.start T ks dr rev (some k) b).RK = e.RK := by
  cases b <;> simp [Engine.start, Engine.clearError]
@[simp] theorem Engine.start_key_L (T : Tables) (ks dr rev : Bool) (b : Option Block) (k : Block) (e : Engine) :
    (e.start T ks dr rev (some k) b).L = e.L := by
  cases b <;> simp [Engine.start, Engine.clearError]
@[simp] theorem Engine.start_key_R (T : Tables) (ks dr rev : Bool) (b : Option Block) (k : Block) (e : Engine) :
    (e.start T ks dr rev (some k) b).R = e.R := by
  cases b <;> simp [Engine.start, Engine.clearError]
@[simp] theorem Engine.start_key_DIN (T : Tables) (ks dr rev : Bool) (b : Option Block) (k : Block) (e : Engine) :
    (e.start T ks dr rev (some k) b).DIN = b.getD e.DIN := by
  cases b <;> simp [Engine.start, Engine.clearError]
@[simp] theorem Engine.start_key_DOUT (T : Tables) (ks dr rev : Bool) (b : Option Block) (k : Block) (e : Engine) :
    (e.start T ks dr rev (some k) b).DOUT = e.DOUT := by
  cases b <;> simp [Engine.start, Engine.clearError]
@[simp] theorem Engine.start_key_PH (T : Tables) (ks dr rev : Bool) (b : Option Block) (k : Block) (e : Engine) :
    (e.start T ks dr rev (some k) b).PH = .ks := by
  cases b <;> simp [Engine.start, Engine.clearError]
@[simp] theorem Engine.start_key_N (T : Tables) (ks dr rev : Bool) (b : Option Block) (k : Block) (e : Engine) :
    (e.start T ks dr rev (some k) b).N = 0 := by
  cases b <;> simp [Engine.start, Engine.clearError]
@[simp] theorem Engine.start_key_KSF (T : Tables) (ks dr rev : Bool) (b : Option Block) (k : Block) (e : Engine) :
    (e.start T ks dr rev (some k) b).KSF = ks := by
  cases b <;> simp [Engine.start, Engine.clearError]
@[simp] theorem Engine.start_key_DRF (T : Tables) (ks dr rev : Bool) (b : Option Block) (k : Block) (e : Engine) :
    (e.start T ks dr rev (some k) b).DRF = dr := by
  cases b <;> simp [Engine.start, Engine.clearError]
@[simp] theorem Engine.start_key_REVF (T : Tables) (ks dr rev : Bool) (b : Option Block) (k : Block) (e : Engine) :
    (e.start T ks dr rev (some k) b).REVF = rev := by
  cases b <;> simp [Engine.start, Engine.clearError]
@[simp] theorem Engine.start_key_KV (T : Tables) (ks dr rev : Bool) (b : Option Block) (k : Block) (e : Engine) :
    (e.start T ks dr rev (some k) b).KV = false := by
  cases b <;> simp [Engine.start, Engine.clearError]
@[simp] theorem Engine.start_key_DV (T : Tables) (ks dr rev : Bool) (b : Option Block) (k : Block) (e : Engine) :
    (e.start T ks dr rev (some k) b).DV = (e.DV && !b.isSome) := by
  cases b <;> simp [Engine.start, Engine.clearError]
@[simp] theorem Engine.start_key_ERR (T : Tables) (ks dr rev : Bool) (b : Option Block) (k : Block) (e : Engine) :
    (e.start T ks dr rev (some k) b).ERR = false := by
  cases b <;> simp [Engine.start, Engine.clearError]
@[simp] theorem Engine.start_key_ECODE (T : Tables) (ks dr rev : Bool) (b : Option Block) (k : Block) (e : Engine) :
    (e.start T ks dr rev (some k) b).ECODE = .none := by
  cases b <;> simp [Engine.start, Engine.clearError]
@[simp] theorem Engine.start_key_EOP (T : Tables) (ks dr rev : Bool) (b : Option Block) (k : Block) (e : Engine) :
    (e.start T ks dr rev (some k) b).EOP = false := by
  cases b <;> simp [Engine.start, Engine.clearError]
@[simp] theorem Engine.start_key_ERRS (T : Tables) (ks dr rev : Bool) (b : Option Block) (k : Block) (e : Engine) :
    (e.start T ks dr rev (some k) b).ERRS = e.ERRS := by
  cases b <;> simp [Engine.start, Engine.clearError]
@[simp] theorem Engine.start_stored_C (T : Tables) (ks dr rev : Bool) (b : Option Block) (e : Engine) :
    (e.start T ks dr rev none b).C = e.C := by
  cases b <;> simp [Engine.start, Engine.clearError]
@[simp] theorem Engine.start_stored_D (T : Tables) (ks dr rev : Bool) (b : Option Block) (e : Engine) :
    (e.start T ks dr rev none b).D = e.D := by
  cases b <;> simp [Engine.start, Engine.clearError]
@[simp] theorem Engine.start_stored_RK (T : Tables) (ks dr rev : Bool) (b : Option Block) (e : Engine) :
    (e.start T ks dr rev none b).RK = e.RK := by
  cases b <;> simp [Engine.start, Engine.clearError]
@[simp] theorem Engine.start_stored_L (T : Tables) (ks dr rev : Bool) (b : Option Block) (e : Engine) :
    (e.start T ks dr rev none b).L = e.L := by
  cases b <;> simp [Engine.start, Engine.clearError]
@[simp] theorem Engine.start_stored_R (T : Tables) (ks dr rev : Bool) (b : Option Block) (e : Engine) :
    (e.start T ks dr rev none b).R = e.R := by
  cases b <;> simp [Engine.start, Engine.clearError]
@[simp] theorem Engine.start_stored_DIN (T : Tables) (ks dr rev : Bool) (b : Option Block) (e : Engine) :
    (e.start T ks dr rev none b).DIN = b.getD e.DIN := by
  cases b <;> simp [Engine.start, Engine.clearError]
@[simp] theorem Engine.start_stored_DOUT (T : Tables) (ks dr rev : Bool) (b : Option Block) (e : Engine) :
    (e.start T ks dr rev none b).DOUT = e.DOUT := by
  cases b <;> simp [Engine.start, Engine.clearError]
@[simp] theorem Engine.start_stored_PH (T : Tables) (ks dr rev : Bool) (b : Option Block) (e : Engine) :
    (e.start T ks dr rev none b).PH = .ld := by
  cases b <;> simp [Engine.start, Engine.clearError]
@[simp] theorem Engine.start_stored_N (T : Tables) (ks dr rev : Bool) (b : Option Block) (e : Engine) :
    (e.start T ks dr rev none b).N = e.N := by
  cases b <;> simp [Engine.start, Engine.clearError]
@[simp] theorem Engine.start_stored_KSF (T : Tables) (ks dr rev : Bool) (b : Option Block) (e : Engine) :
    (e.start T ks dr rev none b).KSF = ks := by
  cases b <;> simp [Engine.start, Engine.clearError]
@[simp] theorem Engine.start_stored_DRF (T : Tables) (ks dr rev : Bool) (b : Option Block) (e : Engine) :
    (e.start T ks dr rev none b).DRF = dr := by
  cases b <;> simp [Engine.start, Engine.clearError]
@[simp] theorem Engine.start_stored_REVF (T : Tables) (ks dr rev : Bool) (b : Option Block) (e : Engine) :
    (e.start T ks dr rev none b).REVF = rev := by
  cases b <;> simp [Engine.start, Engine.clearError]
@[simp] theorem Engine.start_stored_KV (T : Tables) (ks dr rev : Bool) (b : Option Block) (e : Engine) :
    (e.start T ks dr rev none b).KV = e.KV := by
  cases b <;> simp [Engine.start, Engine.clearError]
@[simp] theorem Engine.start_stored_DV (T : Tables) (ks dr rev : Bool) (b : Option Block) (e : Engine) :
    (e.start T ks dr rev none b).DV = (e.DV && !b.isSome) := by
  cases b <;> simp [Engine.start, Engine.clearError]
@[simp] theorem Engine.start_stored_ERR (T : Tables) (ks dr rev : Bool) (b : Option Block) (e : Engine) :
    (e.start T ks dr rev none b).ERR = false := by
  cases b <;> simp [Engine.start, Engine.clearError]
@[simp] theorem Engine.start_stored_ECODE (T : Tables) (ks dr rev : Bool) (b : Option Block) (e : Engine) :
    (e.start T ks dr rev none b).ECODE = .none := by
  cases b <;> simp [Engine.start, Engine.clearError]
@[simp] theorem Engine.start_stored_EOP (T : Tables) (ks dr rev : Bool) (b : Option Block) (e : Engine) :
    (e.start T ks dr rev none b).EOP = false := by
  cases b <;> simp [Engine.start, Engine.clearError]
@[simp] theorem Engine.start_stored_ERRS (T : Tables) (ks dr rev : Bool) (b : Option Block) (e : Engine) :
    (e.start T ks dr rev none b).ERRS = e.ERRS := by
  cases b <;> simp [Engine.start, Engine.clearError]

/-! ### The reset event (70_reset_and_hazards.md R220): what the spec fixes of it -/

@[simp] theorem State.applyReset_PH (s : State) : s.applyReset.eng.PH = .idle := rfl
@[simp] theorem State.applyReset_N (s : State) : s.applyReset.eng.N = 0 := rfl
@[simp] theorem State.applyReset_KSF (s : State) : s.applyReset.eng.KSF = false := rfl
@[simp] theorem State.applyReset_DRF (s : State) : s.applyReset.eng.DRF = false := rfl
@[simp] theorem State.applyReset_REVF (s : State) : s.applyReset.eng.REVF = false := rfl
@[simp] theorem State.applyReset_KV (s : State) : s.applyReset.eng.KV = false := rfl
@[simp] theorem State.applyReset_DV (s : State) : s.applyReset.eng.DV = false := rfl
@[simp] theorem State.applyReset_ERR (s : State) : s.applyReset.eng.ERR = false := rfl
@[simp] theorem State.applyReset_ECODE (s : State) : s.applyReset.eng.ECODE = .none := rfl
@[simp] theorem State.applyReset_EOP (s : State) : s.applyReset.eng.EOP = false := rfl
@[simp] theorem State.applyReset_ERRS (s : State) : s.applyReset.eng.ERRS = false := rfl
@[simp] theorem State.applyReset_port (s : State) : s.applyReset.port = s.port := rfl
@[simp] theorem State.applyReset_answers (s : State) : s.applyReset.answers = s.answers := rfl
@[simp] theorem State.applyReset_freeCount (s : State) : s.applyReset.freeCount = s.freeCount + 22 := rfl
@[simp] theorem State.applyReset_freeSource (s : State) : s.applyReset.freeSource = s.freeSource := rfl

/-! ### A read's answer (20_memory.md R58) -/

@[simp] theorem State.answer_eng (s : State) (a : ReadAnswer) : (s.answer a).eng = s.eng := rfl
@[simp] theorem State.answer_port (s : State) (a : ReadAnswer) : (s.answer a).port = s.port := rfl
@[simp] theorem State.answer_answers (s : State) (a : ReadAnswer) : (s.answer a).answers = a :: s.answers := rfl
@[simp] theorem State.answer_freeCount (s : State) (a : ReadAnswer) : (s.answer a).freeCount = s.freeCount := rfl
@[simp] theorem State.answer_freeSource (s : State) (a : ReadAnswer) : (s.answer a).freeSource = s.freeSource := rfl

end Sys2Proof.Machine
end

