-- ==== Sys2Proof/Laws/Ops.lean ====
section
/-! SUPPORT. What each shared operation and the step can do, once each; later proofs cite these instead of unfolding. -/

namespace Sys2Proof.Machine

/-- The next round exists exactly while fewer than sixteen are done. -/
theorem roundIndex_eq_some {n : Fin 17} {i : Fin 16} : roundIndex n = some i ↔ n = i.castSucc := by
  unfold roundIndex
  split
  · rename_i h
    constructor
    · intro hi; cases hi; rfl
    · intro hn; subst hn; rfl
  · rename_i h
    constructor
    · intro hi; cases hi
    · intro hn; subst hn; exact absurd i.isLt h

/-- Everything the accept step can do (30_encoding.md R72): nothing, refuse, or start with the operands it uses. -/
theorem accept_cases (T : Tables) (cmd : BitVec 3) (key data : Bytes) (e : Engine) :
    (cmd = 0b000#3 ∧ e.accept T cmd key data = e) ∨
    (∃ code eop, code ≠ .none ∧ (code ≠ .invalidInputLength → eop = false) ∧
      e.accept T cmd key data = e.fail code eop) ∨
    (∃ k b, operandBits (cmdKS cmd) key = some k ∧ operandBits (cmdDR cmd) data = some b ∧
      (k = none → e.KV = true) ∧ (k.isSome ∨ b.isSome) ∧
      e.accept T cmd key data = e.start T (cmdKS cmd) (cmdDR cmd) (cmdREV cmd) k b) := by
  by_cases h0 : cmd = 0b000#3
  · exact .inl ⟨h0, by simp [Engine.accept, h0]⟩
  by_cases h1 : cmd = 0b001#3 ∨ cmd = 0b101#3
  · exact .inr (.inl ⟨.illegalCommand, false, by simp, by simp, by simp [Engine.accept, h0, h1]⟩)
  have hcmd : cmdKS cmd = true ∨ cmdDR cmd = true := by revert h0 h1; revert cmd; decide
  cases hk : operandBits (cmdKS cmd) key with
  | none =>
    exact .inr (.inl ⟨.invalidInputLength, false, by simp, by simp, by simp [Engine.accept, h0, h1, hk]⟩)
  | some k =>
    cases hb : operandBits (cmdDR cmd) data with
    | none =>
      exact .inr (.inl ⟨.invalidInputLength, true, by simp, by simp, by simp [Engine.accept, h0, h1, hk, hb]⟩)
    | some b =>
      by_cases hv : (!cmdKS cmd && cmdDR cmd && !e.KV) = true
      · refine .inr (.inl ⟨.keysNotValid, false, by simp, by simp, ?_⟩)
        simp only [Engine.accept, h0, h1, hk, hb, hv, if_false, if_true]
      · refine .inr (.inr ⟨k, b, rfl, rfl, ?_, ?_, ?_⟩)
        · intro hnone
          subst hnone
          cases hks : cmdKS cmd with
          | true => rw [hks, operandBits] at hk; simp at hk
          | false =>
            rcases hcmd with h | h
            · rw [hks] at h; cases h
            · simpa [hks, h] using hv
        · rcases hcmd with h | h
          · left
            rw [h, operandBits] at hk
            cases hbb : bytesToBits key with
            | none => simp [hbb] at hk
            | some v => simp [hbb] at hk; subst hk; rfl
          · right
            rw [h, operandBits] at hb
            cases hbb : bytesToBits data with
            | none => simp [hbb] at hb
            | some v => simp [hbb] at hb; subst hb; rfl
        · simp only [Engine.accept, h0, h1, hk, hb, hv, if_false]
          rfl

/-- A command in phase `IDLE` is the accept step on its word. -/
theorem exec_decodeCommand (cmd : BitVec 3) (key data : Bytes) (s : State) :
    exec (decodeCommand cmd key data) s = acceptCommand cmd key data s := by
  have h : cmd = 0b000#3 ∨ cmd = 0b001#3 ∨ cmd = 0b010#3 ∨ cmd = 0b011#3 ∨ cmd = 0b100#3 ∨ cmd = 0b101#3 ∨
      cmd = 0b110#3 ∨ cmd = 0b111#3 := by revert cmd; decide
  rcases h with h | h | h | h | h | h | h | h <;> subst h <;> rfl

/-- A read that is accepted hands the host one answer and does nothing else. -/
theorem exec_decodeRead (rsel : BitVec 5) (s : State) (h : readAccepted rsel s.eng = true) :
    ∃ a, exec (decodeRead rsel) s = .next (s.answer a) := by
  by_cases hi : s.eng.PH = .idle
  · unfold decodeRead
    repeat' split
    all_goals simp [exec, execRdrk, execRdout, execRdstat, readWhenIdle, hi, readReserved,
      execReservedRsel18, execReservedRsel19, execReservedRsel20, execReservedRsel21, execReservedRsel22,
      execReservedRsel23, execReservedRsel24, execReservedRsel25, execReservedRsel26, execReservedRsel27,
      execReservedRsel28, execReservedRsel29, execReservedRsel30, execReservedRsel31]
  · have hb : s.eng.busy = true := by simpa [Engine.busy] using hi
    have hr : 16 < rsel.toNat := by simpa [readAccepted, hb] using h
    have h : ∀ r : BitVec 5, 16 < r.toNat → decodeRead r = .rdstat ∨ (∀ s, exec (decodeRead r) s = readReserved s) := by
      intro r
      have hcase : r.toNat ≤ 16 ∨ r = 17#5 ∨ r = 18#5 ∨ r = 19#5 ∨ r = 20#5 ∨ r = 21#5 ∨ r = 22#5 ∨ r = 23#5 ∨
          r = 24#5 ∨ r = 25#5 ∨ r = 26#5 ∨ r = 27#5 ∨ r = 28#5 ∨ r = 29#5 ∨ r = 30#5 ∨ r = 31#5 := by
        revert r; decide
      intro hr
      rcases hcase with h | h | h | h | h | h | h | h | h | h | h | h | h | h | h | h
      · omega
      · left; subst h; rfl
      all_goals (right; subst h; intro s; rfl)
    rcases h rsel hr with h | h
    · rw [h]; exact ⟨_, rfl⟩
    · rw [h]; exact ⟨_, rfl⟩

/-- What the sequencer's turn does to an engine: the step its phase selects, under that step's precondition. -/
inductive SequencerStep (T : Tables) (e : Engine) : Engine → Prop where
  | ks (i : Fin 16) : e.PH = .ks → e.N = i.castSucc → SequencerStep T e (e.ksRound T i)
  | ld : e.PH = .ld → SequencerStep T e (e.load T)
  | rnd (i : Fin 16) : e.PH = .rnd → e.N = i.castSucc → SequencerStep T e (e.rndRound T i)
  | fin : e.PH = .fin → e.N = 16 → SequencerStep T e (e.finish T)

theorem sequencerRound_next {ph : Phase} {f : Fin 16 → Engine → Engine} {s t : State}
    (h : sequencerRound ph f s = .next t) :
    ∃ i : Fin 16, s.eng.PH = ph ∧ s.eng.N = i.castSucc ∧ t = { s with eng := f i s.eng } := by
  unfold sequencerRound at h
  split at h
  · rename_i hph
    split at h
    · rename_i i hi
      cases h
      exact ⟨i, hph, roundIndex_eq_some.mp hi, rfl⟩
    · cases h
  · cases h

/-- Everything the sequencer's turn can do when it answers a next state. -/
theorem exec_phase_next {s t : State} {i : Instr} (hd : decode (.phase s.eng.PH.code) = .ok i)
    (h : exec i s = .next t) : ∃ e', SequencerStep tables s.eng e' ∧ t = { s with eng := e' } := by
  cases hp : s.eng.PH with
  | idle => rw [hp] at hd; cases hd
  | ks =>
    rw [hp] at hd; cases hd
    obtain ⟨i, h1, h2, h3⟩ := sequencerRound_next (ph := .ks) h
    exact ⟨_, .ks i h1 h2, h3⟩
  | ld =>
    rw [hp] at hd; cases hd
    simp only [exec, execLdStep, hp, if_true] at h
    cases h
    exact ⟨_, .ld hp, rfl⟩
  | rnd =>
    rw [hp] at hd; cases hd
    obtain ⟨i, h1, h2, h3⟩ := sequencerRound_next (ph := .rnd) h
    exact ⟨_, .rnd i h1 h2, h3⟩
  | fin =>
    rw [hp] at hd; cases hd
    simp only [exec, execFinStep, hp, true_and] at h
    split at h
    · rename_i hn
      cases h
      exact ⟨_, .fin hp hn, rfl⟩
    · cases h

/-- A run's first step. -/
theorem steps_succ {s t : State} (h : step s = .next t) (k : Nat) : steps (k + 1) s = steps k t := by
  simp only [steps, h]

/-- Everything a step can do when it answers a next state: the reset event, an accept, a read, nothing, or a sequencer
step. -/
theorem step_cases {s t : State} (h : step s = .next t) :
    (∃ rest, s.port = .reset :: rest ∧ t = { s with port := rest }.applyReset) ∨
    (∃ cmd key data rest, s.port = .command cmd key data :: rest ∧ s.eng.PH = .idle ∧
      t = { s with eng := s.eng.accept tables cmd key data, port := rest }) ∨
    (∃ rsel rest a, s.port = .read rsel :: rest ∧ readAccepted rsel s.eng = true ∧
      exec (decodeRead rsel) { s with port := rest } = .next ({ s with port := rest }.answer a) ∧
      t = { s with port := rest }.answer a) ∨
    (∃ rest, (s.port = rest ∨ s.port = .pass :: rest ∨ s.port = .untilIdle :: rest) ∧ s.eng.PH = .idle ∧
      t = { s with port := rest }) ∨
    (∃ rest e', (s.port = rest ∨ s.port = .pass :: rest) ∧ SequencerStep tables s.eng e' ∧
      t = { s with eng := e', port := rest }) := by
  have seq : ∀ s' : State, s'.eng = s.eng → ∀ u, (match sequencerTurn s' with
      | .quiet s' => .next s'
      | .resetEvent s' => .next s'.applyReset
      | .run word s' => match decode word with
        | .ok i => exec i s'
        | .error why => .refused (.noSuchStep why) : StepOutcome) = .next u →
      (s.eng.PH = .idle ∧ u = s') ∨ (∃ e', SequencerStep tables s.eng e' ∧ u = { s' with eng := e' }) := by
    intro s' hs' u hu
    unfold sequencerTurn at hu
    by_cases hi : s'.eng.PH = .idle
    · simp only [hi, if_true] at hu
      cases hu
      exact .inl ⟨hs' ▸ hi, rfl⟩
    · simp only [hi, if_false] at hu
      cases hd : decode (.phase s'.eng.PH.code) with
      | ok i =>
        simp only [hd] at hu
        obtain ⟨e', h1, h2⟩ := exec_phase_next hd hu
        exact .inr ⟨e', hs' ▸ h1, h2⟩
      | error why => simp only [hd] at hu; cases hu
  unfold step nextTurn at h
  cases hport : s.port with
  | nil =>
    simp only [hport] at h
    rcases seq s rfl t h with ⟨h1, h2⟩ | ⟨e', h1, h2⟩
    · exact .inr (.inr (.inr (.inl ⟨[], .inl rfl, h1, by rw [h2, ← hport]⟩)))
    · exact .inr (.inr (.inr (.inr ⟨[], e', .inl rfl, h1, by rw [h2, ← hport]⟩)))
  | cons op rest =>
    have held : s.eng.PH ≠ .idle → ∀ hs : (match sequencerTurn s with
        | .quiet s' => .next s'
        | .resetEvent s' => .next s'.applyReset
        | .run word s' => match decode word with
          | .ok i => exec i s'
          | .error why => .refused (.noSuchStep why) : StepOutcome) = .next t,
        ∃ rest' e', (op :: rest = rest' ∨ op :: rest = .pass :: rest') ∧ SequencerStep tables s.eng e' ∧
          t = { s with eng := e', port := rest' } := by
      intro hni hs
      rcases seq s rfl t hs with ⟨h1, _⟩ | ⟨e', h1, h2⟩
      · exact absurd h1 hni
      · exact ⟨op :: rest, e', .inl rfl, h1, by rw [h2, ← hport]⟩
    cases op with
    | pass =>
      simp only [hport] at h
      rcases seq { s with port := rest } rfl t h with ⟨h1, h2⟩ | ⟨e', h1, h2⟩
      · exact .inr (.inr (.inr (.inl ⟨rest, .inr (.inl rfl), h1, h2⟩)))
      · exact .inr (.inr (.inr (.inr ⟨rest, e', .inr rfl, h1, h2⟩)))
    | reset =>
      simp only [hport] at h
      cases h
      exact .inl ⟨rest, rfl, rfl⟩
    | untilIdle =>
      simp only [hport] at h
      by_cases hi : s.eng.PH = .idle
      · have hb : s.eng.busy = false := by simp [Engine.busy, hi]
        simp only [hb] at h
        cases h
        exact .inr (.inr (.inr (.inl ⟨rest, .inr (.inr rfl), hi, rfl⟩)))
      · have hb : s.eng.busy = true := by simpa [Engine.busy] using hi
        simp only [hb, if_true] at h
        exact .inr (.inr (.inr (.inr (held hi h))))
    | command cmd key data =>
      simp only [hport] at h
      by_cases hi : s.eng.PH = .idle
      · have hb : s.eng.busy = false := by simp [Engine.busy, hi]
        simp only [hb, decode] at h
        have h' : acceptCommand cmd key data { s with port := rest } = .next t := by
          rw [← exec_decodeCommand]; exact h
        simp only [acceptCommand, hi, if_true] at h'
        cases h'
        exact .inr (.inl ⟨cmd, key, data, rest, rfl, hi, rfl⟩)
      · have hb : s.eng.busy = true := by simpa [Engine.busy] using hi
        simp only [hb, if_true] at h
        exact .inr (.inr (.inr (.inr (held hi h))))
    | read rsel =>
      simp only [hport] at h
      by_cases ha : readAccepted rsel s.eng = true
      · simp only [ha, if_true, decode] at h
        obtain ⟨a, he⟩ := exec_decodeRead rsel { s with port := rest } ha
        have ht : t = { s with port := rest }.answer a := by
          have := he.symm.trans h
          cases this; rfl
        exact .inr (.inr (.inl ⟨rsel, rest, a, rfl, ha, he, ht⟩))
      · have hi : s.eng.PH ≠ .idle := by
          intro hi; apply ha; simp [readAccepted, Engine.busy, hi]
        simp only [ha] at h
        exact .inr (.inr (.inr (.inr (held hi h))))

end Sys2Proof.Machine
end

