-- ==== Sys2Proof/Laws/PerInstr.lean ====
section
/-! SUPPORT. Facts about every instruction as syntax, one lemma per constructor. Family `OperandsCarried`: an
instruction's word carries exactly the operands the instruction has (30_encoding.md R70, R74). -/

namespace Sys2Proof.Laws.OperandsCarried

/-- The operands in the word are the instruction's. -/
def Statement (i : Instr) : Prop :=
  match encode i with
  | .command _ key data => i.operands = some (key, data)
  | .read _ | .phase _ => i.operands = none

theorem nop (key data : Bytes) : Statement (.nop key data) := rfl
theorem reserved001 (key data : Bytes) : Statement (.reserved001 key data) := rfl
theorem cryptf (key data : Bytes) : Statement (.cryptf key data) := rfl
theorem cryptr (key data : Bytes) : Statement (.cryptr key data) := rfl
theorem keygen (key data : Bytes) : Statement (.keygen key data) := rfl
theorem reserved101 (key data : Bytes) : Statement (.reserved101 key data) := rfl
theorem encrypt (key data : Bytes) : Statement (.encrypt key data) := rfl
theorem decrypt (key data : Bytes) : Statement (.decrypt key data) := rfl
theorem rdrk (k : Fin 16) : Statement (.rdrk k) := rfl
theorem rdout : Statement .rdout := rfl
theorem rdstat : Statement .rdstat := rfl
theorem reservedRsel18 : Statement .reservedRsel18 := rfl
theorem reservedRsel19 : Statement .reservedRsel19 := rfl
theorem reservedRsel20 : Statement .reservedRsel20 := rfl
theorem reservedRsel21 : Statement .reservedRsel21 := rfl
theorem reservedRsel22 : Statement .reservedRsel22 := rfl
theorem reservedRsel23 : Statement .reservedRsel23 := rfl
theorem reservedRsel24 : Statement .reservedRsel24 := rfl
theorem reservedRsel25 : Statement .reservedRsel25 := rfl
theorem reservedRsel26 : Statement .reservedRsel26 := rfl
theorem reservedRsel27 : Statement .reservedRsel27 := rfl
theorem reservedRsel28 : Statement .reservedRsel28 := rfl
theorem reservedRsel29 : Statement .reservedRsel29 := rfl
theorem reservedRsel30 : Statement .reservedRsel30 := rfl
theorem reservedRsel31 : Statement .reservedRsel31 := rfl
theorem ksStep : Statement .ksStep := rfl
theorem ldStep : Statement .ldStep := rfl
theorem rndStep : Statement .rndStep := rfl
theorem finStep : Statement .finStep := rfl

end Sys2Proof.Laws.OperandsCarried
end

