-- ==== Sys2Proof/Machine/KnownAnswers.lean ====
section
/-! DEFINITION. The checks 41_tables.md R119 asks a model to run on its copy of the tables, and the known answers of
95_test_vectors.md section 3.7. That the standard tables pass them is proved in Laws/Tables.lean. -/

namespace Sys2Proof.Machine

/-- R119 (b) to (h), for a table set; (a), lengths and entry ranges, holds by the types. -/
structure TablesChecked (T : Tables) : Prop where
  /-- (b): `IP`, `FP`, `P` are bijections. -/
  bijections : T.ip.Bijective ∧ T.fp.Bijective ∧ T.p.Bijective
  /-- (b): `FP` inverts `IP`. -/
  inverse : T.FpInvertsIp
  /-- (c): `PC1` has 56 distinct entries and omits exactly the last bit of each key byte. -/
  pc1Distinct : T.pc1.entries.Nodup
  pc1Omits : (List.range' 1 64).filter (fun t => t ∉ T.pc1.entries) = [8, 16, 24, 32, 40, 48, 56, 64]
  /-- (d): `PC2` has 48 distinct entries and omits exactly these eight. -/
  pc2Distinct : T.pc2.entries.Nodup
  pc2Omits : (List.range' 1 56).filter (fun t => t ∉ T.pc2.entries) = [9, 18, 22, 25, 35, 38, 43, 54]
  /-- (e): `E` covers 1 to 32, exactly these sixteen of them twice (R108). -/
  eCovers : ∀ t ∈ List.range' 1 32, T.e.entries.count t =
    if t ∈ [1, 4, 5, 8, 9, 12, 13, 16, 17, 20, 21, 24, 25, 28, 29, 32] then 2 else 1
  /-- (f): every row of every S-box is a permutation of 0 to 15. -/
  sboxRows : ∀ S ∈ T.s.toList, ∀ r ∈ List.range 4, ((S.entries.drop (16 * r)).take 16).Perm (List.range 16)
  /-- (g): `LEFT_SHIFTS` sums to 28. -/
  shiftSum : T.leftShifts.amounts.sum = 28
  /-- (h): the checksums. -/
  sums : [T.pc1.entries.sum, T.pc2.entries.sum, T.ip.entries.sum, T.fp.entries.sum, T.e.entries.sum, T.p.entries.sum] =
    [1792, 1352, 2080, 2080, 792, 528]
  sboxSums : ∀ S ∈ T.s.toList, S.entries.sum = 480

/-- A known answer of the whole cipher: a line of 95_test_vectors.md section 3.7. -/
structure KnownAnswer where
  key : Block
  plaintext : Block
  ciphertext : Block
  deriving DecidableEq, Repr

/-- R119 (i): `encryptBlock(plaintext, key) = ciphertext` under a table set. -/
abbrev KnownAnswer.Holds (T : Tables) (a : KnownAnswer) : Prop :=
  encryptBlock T (bitsToBytes a.plaintext) (bitsToBytes a.key) = .ok (bitsToBytes a.ciphertext)

/-- The rows marked "published". -/
def publishedAnswers : List KnownAnswer :=
  [
    ⟨0x133457799BBCDFF1#64, 0x0123456789ABCDEF#64, 0x85E813540F0AB405#64⟩,
    ⟨0x0000000000000000#64, 0x0000000000000000#64, 0x8CA64DE9C1B123A7#64⟩,
    ⟨0xFFFFFFFFFFFFFFFF#64, 0xFFFFFFFFFFFFFFFF#64, 0x7359B2163E4EDC58#64⟩,
    ⟨0x0101010101010101#64, 0x8000000000000000#64, 0x95F8A5E5DD31D900#64⟩,
    ⟨0x0123456789ABCDEF#64, 0x4E6F772069732074#64, 0x3FA40E8A984D4815#64⟩,
    ⟨0x3000000000000000#64, 0x1000000000000001#64, 0x958E6E627A05557B#64⟩,
    ⟨0x0123456789ABCDEF#64, 0x1111111111111111#64, 0x17668DFC7292532D#64⟩,
    ⟨0xFEDCBA9876543210#64, 0x0123456789ABCDEF#64, 0xED39D950FA74BCC4#64⟩]

/-- The document's known-answer test, the parity rows and the complement row. -/
def parityAnswers : List KnownAnswer :=
  [
    ⟨0x3132333435363738#64, 0x6162636465666768#64, 0x94D4436BC3B5B693#64⟩,
    ⟨0x3032323434363638#64, 0x6162636465666768#64, 0x94D4436BC3B5B693#64⟩,
    ⟨0x123456789ABCDEF0#64, 0x0123456789ABCDEF#64, 0x85E813540F0AB405#64⟩,
    ⟨0x0101010101010101#64, 0x0000000000000000#64, 0x8CA64DE9C1B123A7#64⟩,
    ⟨0xFEFEFEFEFEFEFEFE#64, 0xFFFFFFFFFFFFFFFF#64, 0x7359B2163E4EDC58#64⟩,
    ⟨0xECCBA8866443200E#64, 0xFEDCBA9876543210#64, 0x7A17ECABF0F54BFA#64⟩]

/-- The remaining rows, single key bits among them. -/
def otherAnswers : List KnownAnswer :=
  [
    ⟨0x0123456789ABCDEF#64, 0x0000000000000000#64, 0xD5D44FF720683D0D#64⟩,
    ⟨0x0123456789ABCDEF#64, 0xFFFFFFFFFFFFFFFF#64, 0x59732356F36FDE06#64⟩,
    ⟨0x8000000000000000#64, 0x0000000000000000#64, 0x95A8D72813DAA94D#64⟩,
    ⟨0x0200000000000000#64, 0x0000000000000000#64, 0x4615AA1D33E72F10#64⟩,
    ⟨0x0100000000000000#64, 0x0000000000000000#64, 0x8CA64DE9C1B123A7#64⟩]

/-- The lines on equal round keys (42_key_schedule.md R131). -/
def equalKeyAnswers : List KnownAnswer :=
  [
    ⟨0x0101010101010101#64, 0x0123456789ABCDEF#64, 0x617B3A0CE8F07100#64⟩,
    ⟨0x0101010101010101#64, 0x617B3A0CE8F07100#64, 0x0123456789ABCDEF#64⟩,
    ⟨0xFEFEFEFEFEFEFEFE#64, 0x0123456789ABCDEF#64, 0x6DCE0DC9006556A3#64⟩,
    ⟨0xFEFEFEFEFEFEFEFE#64, 0x6DCE0DC9006556A3#64, 0x0123456789ABCDEF#64⟩,
    ⟨0x01FE01FE01FE01FE#64, 0x0123456789ABCDEF#64, 0x8A76C7A4F16D47ED#64⟩,
    ⟨0xFE01FE01FE01FE01#64, 0x8A76C7A4F16D47ED#64, 0x0123456789ABCDEF#64⟩]

/-- All of section 3.7. -/
def knownAnswers : List KnownAnswer :=
  publishedAnswers ++ parityAnswers ++ otherAnswers ++ equalKeyAnswers

end Sys2Proof.Machine
end

