-- ==== Sys2Proof/Laws/Tables.lean ====
section
/-! SUPPORT. The standard tables pass every check of 41_tables.md R119. -/

namespace Sys2Proof.Machine

/- One evaluation at a time. -/
set_option Elab.async false

/-- R119 (b): `FP` inverts `IP`. -/
theorem tables_fpInvertsIp : tables.FpInvertsIp := by
  unfold Tables.FpInvertsIp
  decide +kernel

/-- R119 (b) to (h). -/
theorem tables_checked : TablesChecked tables where
  bijections := by unfold PermTable.Bijective; decide +kernel
  inverse := tables_fpInvertsIp
  pc1Distinct := by decide +kernel
  pc1Omits := by decide +kernel
  pc2Distinct := by decide +kernel
  pc2Omits := by decide +kernel
  eCovers := by decide +kernel
  sboxRows := by decide +kernel
  shiftSum := by decide +kernel
  sums := by decide +kernel
  sboxSums := by decide +kernel

theorem publishedAnswers_hold : ∀ a ∈ publishedAnswers, a.Holds tables := by decide +kernel
theorem parityAnswers_hold : ∀ a ∈ parityAnswers, a.Holds tables := by decide +kernel
theorem otherAnswers_hold : ∀ a ∈ otherAnswers, a.Holds tables := by decide +kernel
theorem equalKeyAnswers_hold : ∀ a ∈ equalKeyAnswers, a.Holds tables := by decide +kernel

/-- R119 (i). -/
theorem knownAnswers_hold : ∀ a ∈ knownAnswers, a.Holds tables := by
  simp only [knownAnswers, List.forall_mem_append]
  exact ⟨⟨⟨publishedAnswers_hold, parityAnswers_hold⟩, otherAnswers_hold⟩, equalKeyAnswers_hold⟩

end Sys2Proof.Machine
end

