-- ==== Sys2Proof/Machine/Assembly.lean ====
section
/-! DEFINITION. The textual syntax of host operations (30_encoding.md R84): one line per operation, read from its
characters to what the host does. -/

namespace Sys2Proof.Machine

/-- One line of a host program (R84). -/
inductive Line where
  | command (cmd : BitVec 3) (key data : Bytes)
  | read (rsel : BitVec 5)
  | reset
  deriving DecidableEq, Repr

/-- What the host does for a line: "Between two lines the engine runs until `PH = IDLE` unless the line is `RDSTAT`"
(R84). A command, `RDOUT` and `RDRK` are held by the engine's own rule (R72, R78). `RDSTAT` "may be written at any
point", and the text does not say how far the engine has run by then: `turns` does, the engine's turns the host lets
pass before it reads (log 23). -/
def Line.ops (turns : Nat) : Line → List HostOp
  | .command cmd key data => [.command cmd key data]
  | .read rsel => if rsel = 0b10001#5 then List.replicate turns .pass ++ [.read rsel] else [.read rsel]
  | .reset => [.untilIdle, .reset]

/-- A program's operations. `turns` gives, for each `RDSTAT` line in order, the turns before it; a line past the end of
`turns` reads at once (log 23). -/
def programOps : (turns : List Nat) → List Line → List HostOp
  | _, [] => []
  | turns, l :: ls =>
    l.ops (turns.headD 0) ++ programOps (if l = .read 0b10001#5 then turns.tail else turns) ls

/-- The double quote, code 34. -/
def quoteChar : Char := Char.ofNat 34

/-- The words of a line: separated by blanks outside quotes, up to a comment. -/
def lineWords : List Char → (quoted : Bool) → (word : List Char) → List (List Char)
  | [], _, word => if word.isEmpty then [] else [word.reverse]
  | c :: cs, true, word => lineWords cs (c != quoteChar) (c :: word)
  | c :: cs, false, word =>
    if c = ';' then (if word.isEmpty then [] else [word.reverse])
    else if c = ' ' ∨ c = '\t' then (if word.isEmpty then [] else [word.reverse]) ++ lineWords cs false []
    else lineWords cs (c == quoteChar) (c :: word)

/-- The value of a hexadecimal digit. -/
def hexDigit (c : Char) : Option Nat :=
  if '0' ≤ c ∧ c ≤ '9' then some (c.toNat - 48)
  else if 'A' ≤ c ∧ c ≤ 'F' then some (c.toNat - 55)
  else if 'a' ≤ c ∧ c ≤ 'f' then some (c.toNat - 87)
  else none

/-- "an even number of hexadecimal digits, two per byte, first byte first" (R84). -/
def hexBytes : List Char → Option Bytes
  | [] => some []
  | [_] => none
  | hi :: lo :: rest =>
    match hexDigit hi, hexDigit lo, hexBytes rest with
    | some h, some l, some bs => some (BitVec.ofNat 8 (16 * h + l) :: bs)
    | _, _, _ => none

/-- The characters up to a closing quote that ends the word. -/
def quotedBytes : List Char → Option Bytes
  | [] => none
  | [c] => if c = quoteChar then some [] else none
  | c :: rest =>
    if c = quoteChar ∨ 127 < c.toNat then none
    else (quotedBytes rest).map (BitVec.ofNat 8 c.toNat :: ·)

/-- `<bytes>`: hexadecimal digits, or an ASCII string in double quotes (R84). -/
def parseBytes : List Char → Option Bytes
  | [] => some []
  | c :: rest => if c = quoteChar then quotedBytes rest else hexBytes (c :: rest)

/-- The bytes of the operand `name=<bytes>`; "an operand that is left out is the empty sequence" (R84). -/
def parseOperands (allowKey allowData : Bool) (key data : Bytes) : List (List Char) → Option (Bytes × Bytes)
  | [] => some (key, data)
  | w :: ws =>
    if allowKey ∧ w.take 4 = ['k', 'e', 'y', '='] then
      (parseBytes (w.drop 4)).bind fun b => parseOperands false allowData b data ws
    else if allowData ∧ w.take 5 = ['d', 'a', 't', 'a', '='] then
      (parseBytes (w.drop 5)).bind fun b => parseOperands allowKey false key b ws
    else none

/-- A decimal number. -/
def parseDecimal (ds : List Char) : Option Nat :=
  if ds.isEmpty ∨ ds.any (fun c => c < '0' || '9' < c) then none
  else some (ds.foldl (fun n c => 10 * n + (c.toNat - 48)) 0)

/-- The three binary digits of a `RAW` line. -/
def parseCmd : List Char → Option (BitVec 3)
  | [a, b, c] =>
    if [a, b, c].all (fun d => d == '0' || d == '1') then
      some (BitVec.ofBool (a == '1') ++ BitVec.ofBool (b == '1') ++ BitVec.ofBool (c == '1'))
    else none
  | _ => none

/-- A command line: the operands its mnemonic admits. -/
def commandLine (cmd : BitVec 3) (allowKey allowData : Bool) (ws : List (List Char)) : Option Line :=
  (parseOperands allowKey allowData [] [] ws).map fun kd => .command cmd kd.1 kd.2

/-- The index of an `RDRK` line. -/
def rdrkLine (w : List Char) : Option Line :=
  (parseDecimal w).bind fun k => if k < 16 then some (.read (BitVec.ofNat 5 k)) else none

/-- The line of a mnemonic and its words (R84). -/
def parseWords : List (List Char) → Option Line
  | [] => none
  | m :: ws =>
    if m = "NOP".toList then commandLine 0b000#3 false false ws
    else if m = "KEYGEN".toList then commandLine 0b100#3 true false ws
    else if m = "ENCRYPT".toList then commandLine 0b110#3 true true ws
    else if m = "DECRYPT".toList then commandLine 0b111#3 true true ws
    else if m = "CRYPTF".toList then commandLine 0b010#3 false true ws
    else if m = "CRYPTR".toList then commandLine 0b011#3 false true ws
    else
      match ws with
      | [] =>
        if m = "RDSTAT".toList then some (.read 0b10001#5)
        else if m = "RDOUT".toList then some (.read 0b10000#5)
        else if m = "RESET".toList then some .reset
        else none
      | w :: rest =>
        if m = "RDRK".toList then (if rest.isEmpty then rdrkLine w else none)
        else if m = "RAW".toList then (parseCmd w).bind fun cmd => commandLine cmd true true rest
        else none

/-- One line of text. -/
def parseLine (text : String) : Option Line := parseWords (lineWords text.toList false [])

/-- A program of lines, as what the host does, given the turns before each of its `RDSTAT` lines (log 23). -/
def assemble (turns : List Nat) (text : List String) : Option (List HostOp) :=
  (text.mapM parseLine).map (programOps turns)

end Sys2Proof.Machine
end

