-- ==== Sys2Proof/Tests/Slice0.lean ====
section
/-! SUPPORT. Tests. Expected values come from spec/: the encodings of 30_encoding.md R73, R78, R83, the vectors of 95_test_vectors.md (named TV and its section), and for every statement with
hypotheses a witness that meets them. A test about the machine runs ONE step. -/

namespace Sys2Proof.Tests

/- One theorem at a time: each kernel evaluation would otherwise start a thread of its own. -/
set_option Elab.async false

open Sys2Proof.Machine

/-! ### Helpers -/

/-- The outcome is a next state, and `P` holds of it. -/
def goes (o : StepOutcome) (P : State → Prop) [DecidablePred P] : Bool :=
  match o with
  | .next t => decide (P t)
  | .fault _ | .refused _ => false

/-- What `goes` says. -/
theorem goes_next {o : StepOutcome} {P : State → Prop} [DecidablePred P] (h : goes o P = true) :
    ∃ t, o = .next t ∧ P t := by
  cases o with
  | next t => exact ⟨t, rfl, of_decide_eq_true h⟩
  | fault r => simp [goes] at h
  | refused r => simp [goes] at h

/-- The machine with these registers and this port. -/
def st (e : Engine) (port : List HostOp := []) : State := ⟨e, port, [], 0, 0⟩

/-- The registers of `State.reset`. -/
def zero : Engine := State.reset.eng

/-- The engine in phase `KS` with `N = n`. -/
def inKs (n : Fin 17) (drf : Bool) : Engine := { zero with PH := .ks, N := n, KSF := true, DRF := drf }

/-- The engine in a driver phase with `N = n`. -/
def inDriver (ph : Phase) (n : Fin 17) (rev : Bool) : Engine :=
  { zero with PH := ph, N := n, DRF := true, REVF := rev, KV := true }

/-- The idle engine with valid keys and a valid result. -/
def done : Engine := { zero with N := 16, KV := true, DV := true }

/-- Key 133457799BBCDFF1 of the running example. -/
def key1 : Bytes := [0x13, 0x34, 0x57, 0x79, 0x9B, 0xBC, 0xDF, 0xF1]
/-- Block 0123456789ABCDEF. -/
def block1 : Bytes := [0x01, 0x23, 0x45, 0x67, 0x89, 0xAB, 0xCD, 0xEF]
/-- Its ciphertext 85E813540F0AB405. -/
def cipher1 : Bytes := [0x85, 0xE8, 0x13, 0x54, 0x0F, 0x0A, 0xB4, 0x05]

/-! ### Well-formedness -/

/-- P2: a fixed-width port cannot present a 7-byte key, a 9-byte block, or an unused operand of another length. -/
theorem test_wf_refuses_short_key : (Instr.keygen (List.replicate 7 0) zeroOperand).wfOn true = false := by decide
theorem test_wf_refuses_long_data : (Instr.encrypt zeroOperand (List.replicate 9 0)).wfOn true = false := by decide
theorem test_wf_refuses_unused_operand : (Instr.cryptf [] zeroOperand).wfOn true = false := by decide
/-- R70: the engine's own port presents operands of any length. -/
theorem test_wf_admits_any_length : (Instr.encrypt [] (List.replicate 9 0)).wf = true := by decide

/-! ### Decoding, from the words of R73, R78, R83 -/

theorem test_decode_commands (k d : Bytes) :
    decode (.command 0b000#3 k d) = .ok (.nop k d) ∧ decode (.command 0b001#3 k d) = .ok (.reserved001 k d) ∧
    decode (.command 0b010#3 k d) = .ok (.cryptf k d) ∧ decode (.command 0b011#3 k d) = .ok (.cryptr k d) ∧
    decode (.command 0b100#3 k d) = .ok (.keygen k d) ∧ decode (.command 0b101#3 k d) = .ok (.reserved101 k d) ∧
    decode (.command 0b110#3 k d) = .ok (.encrypt k d) ∧ decode (.command 0b111#3 k d) = .ok (.decrypt k d) :=
  ⟨rfl, rfl, rfl, rfl, rfl, rfl, rfl, rfl⟩

theorem test_decode_reads :
    decodeRead 0b00000#5 = .rdrk 0 ∧ decodeRead 0b00001#5 = .rdrk 1 ∧ decodeRead 0b01000#5 = .rdrk 8 ∧
    decodeRead 0b01111#5 = .rdrk 15 ∧ decodeRead 0b10000#5 = .rdout ∧ decodeRead 0b10001#5 = .rdstat := by decide

theorem test_decode_reserved_reads :
    decodeRead 0b10010#5 = .reservedRsel18 ∧ decodeRead 0b10011#5 = .reservedRsel19 ∧
    decodeRead 0b10100#5 = .reservedRsel20 ∧ decodeRead 0b10101#5 = .reservedRsel21 ∧
    decodeRead 0b10110#5 = .reservedRsel22 ∧ decodeRead 0b10111#5 = .reservedRsel23 ∧
    decodeRead 0b11000#5 = .reservedRsel24 ∧ decodeRead 0b11001#5 = .reservedRsel25 ∧
    decodeRead 0b11010#5 = .reservedRsel26 ∧ decodeRead 0b11011#5 = .reservedRsel27 ∧
    decodeRead 0b11100#5 = .reservedRsel28 ∧ decodeRead 0b11101#5 = .reservedRsel29 ∧
    decodeRead 0b11110#5 = .reservedRsel30 ∧ decodeRead 0b11111#5 = .reservedRsel31 := by decide

theorem test_decode_phases :
    decodePhase 0b000#3 = .error .idleTakesNoStep ∧ decodePhase 0b001#3 = .ok .ksStep ∧
    decodePhase 0b010#3 = .ok .ldStep ∧ decodePhase 0b011#3 = .ok .rndStep ∧ decodePhase 0b100#3 = .ok .finStep ∧
    decodePhase 0b101#3 = .error .reservedPhase ∧ decodePhase 0b110#3 = .error .reservedPhase ∧
    decodePhase 0b111#3 = .error .reservedPhase := ⟨rfl, rfl, rfl, rfl, rfl, rfl, rfl, rfl⟩

/-- Log 13: the table words of the three formats. -/
theorem test_table_words :
    decodeTableWord 8 0 = some (.nop zeroOperand zeroOperand) ∧
    decodeTableWord 8 7 = some (.decrypt zeroOperand zeroOperand) ∧ decodeTableWord 8 8 = some (.rdrk 8) ∧
    decodeTableWord 8 16 = some .rdout ∧ decodeTableWord 8 31 = some .reservedRsel31 ∧
    decodeTableWord 5 3 = some (.rdrk 3) ∧ decodeTableWord 8 32 = none := by decide

/-- Log 14: the step after `withFetchWord` runs the word's instruction, from reset and from a busy state. -/
theorem test_with_fetch_word_command :
    step (State.reset.withFetchWord 8 6) = exec (.encrypt zeroOperand zeroOperand) State.reset := rfl
theorem test_with_fetch_word_read : step (State.reset.withFetchWord 8 17) = exec .rdstat State.reset := rfl
theorem test_with_fetch_word_busy :
    step ((st (inKs 3 true)).withFetchWord 8 16) = exec .rdout (st { inKs 3 true with PH := .idle }) := rfl

/-! ### The tables: the checks of R119 are Laws/Tables.lean -/

/-- Witness of FinalPermutationUndoesInitial and DecryptionUndoesEncryption. -/
theorem test_witness_FpInvertsIp : tables.FpInvertsIp := tables_fpInvertsIp

/-! ### The functions (TV 3.1 to 3.7) -/

/-- TV 3.1. -/
theorem test_codec :
    bytesToBits block1 = some 0x0123456789ABCDEF#64 ∧ bitsToBytes 0x0123456789ABCDEF#64 = block1 ∧
    bytesToBits (List.replicate 7 0) = none ∧ bytesToBits (List.replicate 9 0) = none ∧
    unsignedToBits 16 4 = none ∧ unsignedToBits 14 4 = some 0b1110#4 ∧ bitsToUnsigned 0b011011#6 = 27 ∧
    bitAt 0x8000000000000000#64 0 = true ∧ bitAt 0x0000000000000001#64 63 = true := by
  decide +kernel

/-- TV 3.2. -/
theorem test_permute :
    permute tables.pc1 0x0123456789ABCDEF#64 = 0xF0CCAA0AACCF00#56 ∧
    permute tables.ip 0x0123456789ABCDEF#64 = 0xCC00CCFFF0AAF0AA#64 ∧
    permute tables.fp 0x0123456789ABCDEF#64 = 0xFF330FAA00330FAA#64 ∧
    permute tables.pc2 0xE19955FAACCF1E#56 = 0x1B02EFFC7072#48 ∧
    permute tables.e 0xF0AAF0AA#32 = 0x7A15557A1555#48 ∧ permute tables.p 0x5C82B597#32 = 0x234AA9BB#32 := by
  decide +kernel

/-- TV 3.3. -/
theorem test_rotl28 :
    rotl28 0xF0CCAAF#28 1 = 0xE19955F#28 ∧ rotl28 0xC332ABF#28 2 = 0x0CCAAFF#28 ∧ rotl28 0x8000000#28 1 = 1#28 := by
  decide +kernel

/-- TV 3.3: round keys 1, 2 and 16 of the running example. -/
theorem test_key_schedule :
    (keySchedule tables 0x133457799BBCDFF1#64)[0] = 0x1B02EFFC7072#48 ∧
    (keySchedule tables 0x133457799BBCDFF1#64)[1] = 0x79AED9DBC9E5#48 ∧
    (keySchedule tables 0x133457799BBCDFF1#64)[15] = 0xCB3D8B0E17F5#48 := by
  decide +kernel

/-- TV 3.4: rows, columns, and lanes whose two row bits differ. -/
theorem test_sbox :
    sboxRow 0b100000#6 = 2 ∧ sboxRow 0b000001#6 = 1 ∧ sboxCol 0b011110#6 = 15 ∧
    sboxLane tables.s[0] 0b100000#6 = 4#4 ∧ sboxLane tables.s[0] 0b000001#6 = 0#4 ∧
    sboxLane tables.s[7] 0b111111#6 = 11#4 ∧ sboxLane tables.s[4] 0b010101#6 = 15#4 ∧
    sboxBank tables 0x6117BA866527#48 = 0x5C82B597#32 := by
  decide +kernel

/-- TV 3.5. -/
theorem test_round_function :
    roundFunction tables 0#32 0#48 = 0xD8D8DBBC#32 ∧ roundFunction tables 0xFFFFFFFF#32 0#48 = 0x38DBF9CB#32 ∧
    roundFunction tables 0xEF4A6544#32 0x79AED9DBC9E5#48 = 0x3CAB87A3#32 := by
  decide +kernel

/-- TV 3.7: first row and first line on equal round keys, the other direction. The rows themselves are Laws/Tables.lean's. -/
theorem test_known_answer_decrypt : decryptBlock tables cipher1 key1 = .ok block1 := by decide +kernel
theorem test_known_answer_equal_keys : decryptBlock tables block1 (List.replicate 8 1) =
    .ok (bitsToBytes 0x617B3A0CE8F07100#64) := by decide +kernel

/-! ### One step of each instruction -/

/-- R76: `NOP` leaves even the error fields. -/
theorem test_nop : exec (.nop [] block1) (st (zero.fail .keysNotValid false)) =
    .next (st (zero.fail .keysNotValid false)) := rfl

/-- TV 3.9. -/
theorem test_reserved001 : goes (exec (.reserved001 [] []) (st done)) (fun t =>
    t.eng = { done with ERR := true, ECODE := .illegalCommand, ERRS := true }) = true := by decide +kernel
theorem test_reserved101 : goes (exec (.reserved101 [] []) (st done)) (fun t =>
    t.eng = { done with ERR := true, ECODE := .illegalCommand, ERRS := true }) = true := by decide +kernel

/-- TV 3.9: length before keys; then the keys; then the start, in forward order. -/
theorem test_cryptf_errors :
    goes (exec (.cryptf [] [1, 2, 3]) State.reset) (fun t => t.eng.ECODE = .invalidInputLength ∧ t.eng.EOP = true) = true ∧
    goes (exec (.cryptf [] block1) State.reset) (fun t => t.eng.ECODE = .keysNotValid ∧ t.eng.PH = .idle) = true := by
  decide +kernel
theorem test_cryptf_starts : goes (exec (.cryptf [] block1) (st done)) (fun t =>
    t.eng = { done with DIN := 0x0123456789ABCDEF#64, DV := false, PH := .ld, DRF := true }) = true := by decide +kernel

/-- TV 3.9: the last row. -/
theorem test_cryptr_starts : goes (exec (.cryptr [] block1) (st done)) (fun t =>
    t.eng = { done with DIN := 0x0123456789ABCDEF#64, DV := false, PH := .ld, DRF := true, REVF := true }) = true := by
  decide +kernel

/-- R121, R128. -/
theorem test_keygen_starts : goes (exec (.keygen key1 []) (st (done.fail .illegalCommand false))) (fun t =>
    t.eng = { done with
      C := 0xF0CCAAF#28, D := 0x556678F#28, KV := false, N := 0, PH := .ks, KSF := true
      ERRS := true }) = true := by decide +kernel

/-- TV 4.1: the state after the accept step of program 1. -/
theorem test_encrypt_starts : goes (exec (.encrypt key1 block1) State.reset) (fun t =>
    t.eng = { zero with
      C := 0xF0CCAAF#28, D := 0x556678F#28, DIN := 0x0123456789ABCDEF#64, PH := .ks, KSF := true
      DRF := true } ∧ t.eng.status = 0x01#8) = true := by decide +kernel

/-- TV 3.9: the key is reported before the data. -/
theorem test_encrypt_errors :
    goes (exec (.encrypt (List.replicate 7 0) (List.replicate 9 0)) State.reset) (fun t => t.eng.status = 0x98#8) = true ∧
    goes (exec (.encrypt key1 (List.replicate 9 0)) State.reset) (fun t => t.eng.status = 0xD8#8) = true := by
  decide +kernel

/-- R167. -/
theorem test_decrypt_starts : goes (exec (.decrypt key1 cipher1) (st done)) (fun t =>
    t.eng.REVF = true ∧ t.eng.DRF = true ∧ t.eng.DIN = 0x85E813540F0AB405#64 ∧ t.eng.KV = false ∧ t.eng.DV = false) =
    true := by decide +kernel

/-- TV 3.10. -/
theorem test_rdrk :
    goes (exec (.rdrk 15) (st { done with RK := (Vector.replicate 16 0).set 15 0xCB3D8B0E17F5#48 })) (fun t =>
      t.answers = [.roundKey 0xCB3D8B0E17F5#48]) = true ∧
    goes (exec (.rdrk 0) State.reset) (fun t => t.answers = [.noValue]) = true := by decide +kernel
theorem test_rdout :
    goes (exec .rdout (st { done with DOUT := 0x85E813540F0AB405#64 })) (fun t => t.answers = [.result cipher1]) = true ∧
    goes (exec .rdout State.reset) (fun t => t.answers = [.noValue]) = true := by decide +kernel

/-- TV 3.8: after reset; a completed `ENCRYPT`; `KEYGEN` running with an old result; phases `LD`, `RND`, `FIN`. -/
theorem test_rdstat :
    goes (exec .rdstat State.reset) (fun t => t.answers = [.status 0x00#8]) = true ∧
    goes (exec .rdstat (st done)) (fun t => t.answers = [.status 0x06#8]) = true ∧
    goes (exec .rdstat (st { inKs 0 false with DV := true })) (fun t => t.answers = [.status 0x05#8]) = true ∧
    goes (exec .rdstat (st (inDriver .rnd 1 false))) (fun t => t.answers = [.status 0x03#8]) = true := by decide +kernel

/-- TV 3.8: the status words of refused commands. -/
theorem test_status_of_errors :
    (zero.fail .keysNotValid false).status = 0xB8#8 ∧ (zero.fail .invalidInputLength false).status = 0x98#8 ∧
    (zero.fail .invalidInputLength true).status = 0xD8#8 ∧ (zero.fail .illegalCommand false).status = 0xA8#8 := by
  decide +kernel

/-- TV 3.10: a reserved select, idle and busy. -/
theorem test_reserved_reads :
    goes (exec .reservedRsel18 (st done)) (fun t => t = { st done with answers := [.noValue] }) = true ∧
    goes (exec .reservedRsel31 (st (inKs 4 false))) (fun t => t.eng = inKs 4 false) = true := by decide +kernel

/-- R129, example, and round 16 with and without a driver run to come. -/
theorem test_ks_step : goes (exec .ksStep (st { inKs 0 true with C := 0xF0CCAAF#28, D := 0x556678F#28 })) (fun t =>
    t.eng = { inKs 1 true with
      C := 0xE19955F#28, D := 0xAACCF1E#28
      RK := (Vector.replicate 16 0).set 0 0x1B02EFFC7072#48 }) = true := by decide +kernel
theorem test_ks_step_last :
    goes (exec .ksStep (st (inKs 15 true))) (fun t => t.eng.PH = .ld ∧ t.eng.KV = true ∧ t.eng.N = 16) = true ∧
    goes (exec .ksStep (st (inKs 15 false))) (fun t => t.eng.PH = .idle ∧ t.eng.KV = true ∧ t.eng.N = 16) = true := by
  decide +kernel

/-- R171, example. -/
theorem test_ld_step :
    goes (exec .ldStep (st { inDriver .ld 16 false with DIN := 0x0123456789ABCDEF#64 })) (fun t =>
      t.eng = { inDriver .rnd 0 false with DIN := 0x0123456789ABCDEF#64, L := 0xCC00CCFF#32, R := 0xF0AAF0AA#32 }) =
    true := by decide +kernel

/-- R172, example; and R163: round 9 in reverse order reads `RK[7]` (TV 3.6, reverse line 9). -/
theorem test_rnd_step :
    goes (exec .rndStep (st { inDriver .rnd 0 false with
      L := 0xCC00CCFF#32, R := 0xF0AAF0AA#32
      RK := (Vector.replicate 16 0).set 0 0x1B02EFFC7072#48 })) (fun t =>
        t.eng.L = 0xF0AAF0AA#32 ∧ t.eng.R = 0xEF4A6544#32 ∧ t.eng.N = 1 ∧ t.eng.PH = .rnd) = true := by decide +kernel
theorem test_rnd_step_reverse :
    goes (exec .rndStep (st { inDriver .rnd 8 true with
      L := 0xD5694B90#32, R := 0x064ABA10#32
      RK := (Vector.replicate 16 0).set 7 0xF78A3AC13BFB#48 })) (fun t =>
        t.eng.L = 0x064ABA10#32 ∧ t.eng.R = 0xE967CD69#32) = true := by decide +kernel

/-- R173, example. -/
theorem test_fin_step :
    goes (exec .finStep (st { inDriver .fin 16 false with L := 0x43423234#32, R := 0x0A4CD995#32 })) (fun t =>
      t.eng.DOUT = 0x85E813540F0AB405#64 ∧ t.eng.DV = true ∧ t.eng.PH = .idle ∧ t.eng.N = 16) = true := by
  decide +kernel

/-! ### One step of the machine -/

/-- R220: the reset event in the middle of a command. -/
theorem test_reset_event : goes (step (st (inKs 7 true) [.reset])) (fun t =>
    t.eng.PH = .idle ∧ t.eng.N = 0 ∧ t.eng.status = 0x00#8 ∧ t.port = []) = true := by decide

/-- R227: a command presented while busy is held and the sequencer steps. -/
theorem test_busy_holds_command : goes (step (st (inKs 7 false) [.command 0b000#3 [] []])) (fun t =>
    t.eng.N = 8 ∧ t.port = [.command 0b000#3 [] []]) = true := by decide +kernel

/-- R79: `RDSTAT` is accepted while busy, and the engine does not move in that step. -/
theorem test_busy_rdstat : goes (step (st (inKs 7 false) [.read 0b10001#5])) (fun t =>
    t.eng = inKs 7 false ∧ t.answers = [.status 0x01#8] ∧ t.port = []) = true := by decide +kernel

/-- R83: in phase `IDLE` with nothing presented nothing changes. -/
theorem test_idle_is_quiet : step State.reset = .next State.reset := rfl

/-- R43: the default system has one instance; of two, each has free values of its own. -/
theorem test_system_reset : System.reset.size = 1 ∧ (System.resetOf 2)[1].freeSource = 1 := ⟨rfl, rfl⟩

/-! ### The textual syntax (R84) -/

theorem test_parse_encrypt : parseLine "ENCRYPT key=133457799BBCDFF1 data=0123456789ABCDEF  ; comment" =
    some (.command 0b110#3 key1 block1) := by decide +kernel
theorem test_parse_strings : parseLine "DECRYPT key=\"12345678\" data=" =
    some (.command 0b111#3 [0x31, 0x32, 0x33, 0x34, 0x35, 0x36, 0x37, 0x38] []) := by decide +kernel
/-- TV 4.2: with the 16 turns of the `KEYGEN` let pass, the `RDSTAT` line is read after them (log 23). -/
theorem test_assemble :
    assemble [16] ["KEYGEN key=133457799BBCDFF1", "RDSTAT", "RDRK 0"] =
      some (.command 0b100#3 key1 [] :: List.replicate 16 .pass ++ [.read 0b10001#5, .read 0b00000#5]) ∧
    assemble [] ["RDSTAT", "RESET"] = some [.read 0b10001#5, .untilIdle, .reset] := by decide +kernel
theorem test_parse_others :
    parseLine "RDRK    15" = some (.read 0b01111#5) ∧ parseLine "RDRK 16" = none ∧
    parseLine "RAW 101 key=0123" = some (.command 0b101#3 [0x01, 0x23] []) ∧ parseLine "RESET" = some .reset ∧
    parseLine "KEYGEN key=012" = none := by decide +kernel

/-! ### Witnesses: the hypotheses of each statement are met, clause by clause, at the ends of their ranges

A statement whose only hypothesis bounds a position or an index has its witness in the tests of the functions above. -/

/-- The invariant holds of a state in each of the phases `IDLE`, `KS`, `RND` (zero key, zero block). -/
theorem test_witness_InvariantHoldsAfterReset : State.reset.Inv where
  roundsBelow16 := by decide
  finAfter16 := by decide
  driverPhases := by decide
  ksPhase := by decide
  noErrorNoCode := by decide
  operandOnlyForLength := by decide
  errorIsSticky := by decide
  busyWithoutError := by decide
  partialSchedule h := absurd h (by decide)
  driverPending := by decide
  validSchedule h := absurd h (by decide)
  driverProgress h := absurd h (by decide)
theorem test_witness_inv_ks : (st (inKs 15 true)).Inv where
  roundsBelow16 := by decide
  finAfter16 := by decide
  driverPhases := by decide
  ksPhase := by decide
  noErrorNoCode := by decide
  operandOnlyForLength := by decide
  errorIsSticky := by decide
  busyWithoutError := by decide
  partialSchedule _ := ⟨0, by decide +kernel⟩
  driverPending := by decide
  validSchedule h := absurd h (by decide)
  driverProgress h := absurd h (by decide)
theorem test_witness_inv_rnd : (st (inDriver .rnd 0 false)).Inv where
  roundsBelow16 := by decide
  finAfter16 := by decide
  driverPhases := by decide
  ksPhase := by decide
  noErrorNoCode := by decide
  operandOnlyForLength := by decide
  errorIsSticky := by decide
  busyWithoutError := by decide
  partialSchedule h := absurd h (by decide)
  driverPending := by decide
  validSchedule _ := ⟨0, by decide +kernel⟩
  driverProgress _ := by decide +kernel
theorem test_witness_StepKeepsInvariant :
    (st (inKs 15 true)).Inv ∧ goes (step (st (inKs 15 true))) (fun t => t.eng.PH = .ld) = true :=
  ⟨test_witness_inv_ks, by decide +kernel⟩
theorem test_witness_MachineNeverStops : State.reset.Inv := test_witness_InvariantHoldsAfterReset

theorem test_witness_CodecPlacesByteBits :
    (List.replicate 7 0 : Bytes).length ≠ 8 ∧ (List.replicate 9 0 : Bytes).length ≠ 8 ∧ block1.length = 8 ∧
    bitAt 0x8040000000000001#64 (8 * 0 + 0) = true ∧ bitAt 0x8040000000000001#64 (8 * 1 + 1) = true ∧
    bitAt 0x8040000000000001#64 (8 * 7 + 7) = true := by decide +kernel
theorem test_witness_UnsignedCodecIsBigEndian :
    2 ^ 4 ≤ 16 ∧ 15 < 2 ^ 4 ∧ unsignedToBits 15 4 = some 15#4 ∧ unsignedToBits 16 4 = none := by decide +kernel
theorem test_witness_CodecRoundTrips : block1.length = 8 ∧ (bytesToBits block1).map bitsToBytes = some block1 := by
  decide +kernel
theorem test_witness_RotatorMovesPositions :
    28 ≤ 28 ∧ rotl28 0xF0CCAAF#28 0 = 0xF0CCAAF#28 ∧ rotl28 0xF0CCAAF#28 28 = 0xF0CCAAF#28 := by decide +kernel
theorem test_witness_DroppedKeyBitsInfluenceNothing :
    (∀ i < 64, i % 8 ≠ 7 → bitAt 0#64 i = bitAt 0x0101010101010101#64 i) ∧
    (∀ i < 8, ((List.replicate 8 0 : Bytes).getD i 0).toNat / 2 = ((List.replicate 8 1 : Bytes).getD i 0).toNat / 2) ∧
    (List.replicate 8 1 : Bytes).length = 8 ∧ State.reset.eng.PH = .idle := by decide +kernel
theorem test_witness_UniformKeyIsSelfInverse :
    (∀ i < 64, i % 8 ≠ 7 → bitAt 0x0101010101010101#64 i = false) ∧
    (∀ i < 64, i % 8 ≠ 7 → bitAt 0xFEFEFEFEFEFEFEFE#64 i = true) := by decide +kernel
theorem test_witness_ExpansionClosedForm :
    bitAt (permute tables.e 0x80000001#32) (6 * 0 + 0) = bitAt 0x80000001#32 ((4 * 0 + 0 + 31) % 32) ∧
    bitAt (permute tables.e 0x80000001#32) (6 * 7 + 5) = bitAt 0x80000001#32 ((4 * 7 + 5 + 31) % 32) := by decide +kernel
theorem test_witness_FeistelRoundInverts :
    (0xF0AAF0AA#32, 0xEF4A6544#32) = feistelRound tables (0xCC00CCFF#32, 0xF0AAF0AA#32) 0x1B02EFFC7072#48 := by
  decide +kernel
theorem test_witness_DecryptionUndoesEncryption : tables.FpInvertsIp ∧ block1.length = 8 ∧ key1.length = 8 :=
  ⟨test_witness_FpInvertsIp, rfl, rfl⟩
theorem test_witness_EntryPointsCheckLengths :
    (key1.length = 8 ∧ block1.length = 8) ∧ ¬(key1.length = 8 ∧ ([] : Bytes).length = 8) := by decide

theorem test_witness_KsStepPerformsOneRound :
    (st (inKs 0 true)).eng.PH = .ks ∧ (st (inKs 0 true)).eng.N = (0 : Fin 16).castSucc ∧
    (st (inKs 15 false)).eng.N = (15 : Fin 16).castSucc := by decide
theorem test_witness_LdStepLoadsHalves : (st (inDriver .ld 16 false)).eng.PH = .ld := by decide
theorem test_witness_RndStepPerformsOneRound :
    (st (inDriver .rnd 0 true)).eng.PH = .rnd ∧ (st (inDriver .rnd 0 true)).eng.N = (0 : Fin 16).castSucc ∧
    (15 : Fin 16).val = 16 - ((0 : Fin 16).val + 1) ∧ (st (inDriver .rnd 15 false)).eng.N = (15 : Fin 16).castSucc ∧
    (15 : Fin 16).val = (15 : Fin 16).val + 1 - 1 := by decide
theorem test_witness_FinStepWritesResult :
    (st (inDriver .fin 16 false)).eng.PH = .fin ∧ (st (inDriver .fin 16 false)).eng.N = 16 := by decide
theorem test_witness_SequencerStepsStopOutsidePrecondition :
    (exec .ksStep (st (inKs 16 false)) matches .refused .stepNotEnabled) = true ∧
    (exec .rndStep (st (inDriver .rnd 16 false)) matches .refused .stepNotEnabled) = true ∧
    (exec .finStep (st (inDriver .fin 15 false)) matches .refused .stepNotEnabled) = true ∧
    (exec .ldStep State.reset matches .refused .stepNotEnabled) = true := by decide +kernel

theorem test_witness_NopChangesNothing : (st done).eng.PH = .idle := rfl
theorem test_witness_ReservedCommandsRecordIllegal : (st done).eng.PH = .idle := rfl
theorem test_witness_KeygenStarts :
    (st done).eng.PH = .idle ∧ bytesToBits key1 = some 0x133457799BBCDFF1#64 := by decide +kernel
theorem test_witness_EncryptAndDecryptStart :
    State.reset.eng.PH = .idle ∧ bytesToBits key1 = some 0x133457799BBCDFF1#64 ∧
    bytesToBits block1 = some 0x0123456789ABCDEF#64 := by decide +kernel
theorem test_witness_CryptfAndCryptrStart :
    (st done).eng.PH = .idle ∧ (st done).eng.KV = true ∧ bytesToBits block1 = some 0x0123456789ABCDEF#64 := by
  decide +kernel
/-- Each clause in turn, each input meeting also what the later clauses ask where it can. -/
theorem test_witness_ErrorPriority :
    State.reset.eng.PH = .idle ∧ 0b101#3 ≠ 0b000#3 ∧ cmdKS 0b101#3 = true ∧
    (cmdKS 0b110#3 = true ∧ (List.replicate 7 0 : Bytes).length ≠ 8 ∧ cmdDR 0b110#3 = true ∧
      (List.replicate 9 0 : Bytes).length ≠ 8) ∧
    (cmdKS 0b010#3 = false ∧ cmdDR 0b010#3 = true ∧ ([1, 2, 3] : Bytes).length ≠ 8 ∧ State.reset.eng.KV = false) ∧
    block1.length = 8 ∧ (st done).eng.KV = true := by decide
theorem test_witness_RefusalChangesOnlyErrorFields : 0b001#3 ≠ 0b000#3 ∧
    goes (exec (decodeCommand 0b001#3 [] []) State.reset) (fun t => t.eng.ERR = true) = true := by decide +kernel
theorem test_witness_UnusedOperandsAreIgnored :
    (cmdDR 0b100#3 = false ∧ block1 ≠ cipher1) ∧ (cmdKS 0b010#3 = false ∧ key1 ≠ []) ∧
    (cmdKS 0b101#3 = true ∧ cmdDR 0b101#3 = false) := by decide
theorem test_witness_BusyEngineHoldsHost :
    (st (inKs 3 true)).eng.PH ≠ .idle ∧ waitsForIdle [] = true ∧ waitsForIdle [.command 0b000#3 [] []] = true ∧
    waitsForIdle [.read 0b10000#5] = true ∧ waitsForIdle [.read 0b10001#5] = false ∧
    decode (.phase (inKs 3 true).PH.code) = .ok .ksStep :=
  ⟨by decide, rfl, rfl, by decide, by decide, rfl⟩

theorem test_witness_RdrkReturnsRoundKey :
    ((st done).eng.PH = .idle ∧ (st done).eng.KV = true) ∧ State.reset.eng.PH = .idle ∧ State.reset.eng.KV = false := by
  decide
theorem test_witness_RdoutReturnsResult :
    ((st done).eng.PH = .idle ∧ (st done).eng.DV = true) ∧ State.reset.eng.PH = .idle ∧ State.reset.eng.DV = false := by
  decide
theorem test_witness_ReservedReadsReturnNothing :
    Instr.reservedRsel18 ∈ [Instr.reservedRsel18, .reservedRsel31] ∧ decodeRead 0b10010#5 = .reservedRsel18 := by decide
theorem test_witness_ReadsHaveNoSideEffect :
    (st done [.pass]).eng = done ∧ (st done).eng = done := ⟨rfl, rfl⟩

theorem test_witness_AfterResetNothingIsReadable :
    (st (Engine.afterReset 1 2 (Vector.replicate 16 3) 4 5 6 7)).eng =
      Engine.afterReset 1 2 (Vector.replicate 16 3) 4 5 6 7 ∧ block1.length = 8 := ⟨rfl, rfl⟩
theorem test_witness_ResetEventInAnyPhase : (st (inDriver .rnd 5 true) [.reset, .pass]).port = .reset :: [.pass] := rfl

theorem test_witness_StepRunsDecodedInstruction :
    nextTurn (st done [.read 0b10000#5]) = .run (.read 0b10000#5) (st done) ∧
    decode (.read 0b10000#5) = .ok .rdout ∧
    nextTurn (st done [.command 0b100#3 key1 []]) = .run (.command 0b100#3 key1 []) (st done) ∧
    nextTurn (st (inKs 2 true) [.read 0b10001#5]) = .run (.read 0b10001#5) (st (inKs 2 true)) ∧
    nextTurn (st (inKs 2 true) [.read 0b10000#5]) = .run (.phase 0b001#3) (st (inKs 2 true) [.read 0b10000#5]) :=
  ⟨by decide, rfl, by decide, by decide, by decide⟩
theorem test_witness_OnlyKsStepWritesRoundKeys :
    (∀ rest, (st { inKs 3 true with C := 0xFFFFFFF#28 }).port ≠ .reset :: rest) ∧
    goes (step (st { inKs 3 true with C := 0xFFFFFFF#28 })) (fun t =>
      t.eng.RK = (Vector.replicate 16 0).set 3 0xFFFFFF000000#48) = true := ⟨fun _ => by simp [st], by decide +kernel⟩
theorem test_witness_KeysValidWriters :
    goes (step (st done [.reset])) (fun t => t.eng.KV ≠ done.KV) = true ∧
    goes (step (st done [.command 0b100#3 key1 []])) (fun t => t.eng.KV ≠ done.KV) = true ∧
    goes (step (st (inKs 15 false))) (fun t => t.eng.KV ≠ (inKs 15 false).KV) = true := by decide +kernel
theorem test_witness_DataValidWriters :
    goes (step (st done [.command 0b010#3 [] block1])) (fun t => t.eng.DV ≠ done.DV) = true ∧
    goes (step (st { inDriver .fin 16 false with L := 1 })) (fun t => t.eng.DV = true ∧ t.eng.DOUT ≠ zero.DOUT) = true := by
  decide +kernel
theorem test_witness_StickyErrorWriters :
    goes (step (st (done.fail .illegalCommand false) [.reset])) (fun t => t.eng.ERRS = false) = true ∧
    goes (step (st done [.command 0b001#3 [] []])) (fun t => t.eng.ERRS ≠ done.ERRS ∧ t.eng.ERR = true) = true ∧
    goes (step (st (done.fail .illegalCommand false) [.command 0b100#3 key1 []])) (fun t => t.eng.ERRS = true) = true := by
  decide +kernel
theorem test_witness_PhaseTransitions :
    goes (step (st (inKs 14 true))) (fun t => t.eng.PH = .ks) = true ∧
    goes (step (st (inKs 15 true))) (fun t => t.eng.PH = .ld) = true ∧
    goes (step (st (inDriver .rnd 14 true))) (fun t => t.eng.PH = .rnd) = true ∧
    goes (step (st (inDriver .rnd 15 true))) (fun t => t.eng.PH = .fin) = true := by decide +kernel
theorem test_witness_ControlIgnoresKeyAndData :
    (st done [.command 0b110#3 key1 block1]).eng.control = (st { done with L := 1 } []).eng.control ∧
    [HostOp.command 0b110#3 key1 block1].map HostOp.shape =
      [HostOp.command 0b110#3 cipher1 (List.replicate 8 0)].map HostOp.shape ∧
    goes (step (st done [.command 0b110#3 key1 block1])) (fun t => t.eng.PH = .ks) = true ∧
    goes (step (st { done with L := 1 } [.command 0b110#3 cipher1 (List.replicate 8 0)])) (fun t => t.eng.PH = .ks) =
      true := by decide +kernel

theorem test_witness_EveryCommandEnds :
    (st (inKs 15 true)).Inv ∧ waitsForIdle (st (inKs 15 true)).port = true ∧ (inKs 15 true).stepsToIdle = 19 ∧
    (inKs 0 true).stepsToIdle = 34 ∧ done.stepsToIdle = 0 ∧
    goes (exec (decodeCommand 0b010#3 [] block1) (st done)) (fun t => t.eng.stepsToIdle = 18) = true :=
  ⟨test_witness_inv_ks, rfl, rfl, rfl, rfl, by decide +kernel⟩
theorem test_witness_KeygenRun :
    (st done [.command 0b100#3 key1 [], .read 0b00000#5]).eng.PH = .idle ∧
    bytesToBits key1 = some 0x133457799BBCDFF1#64 ∧ waitsForIdle [.read 0b00000#5] = true := by decide +kernel
theorem test_witness_EncryptAndDecryptRun :
    (st zero [.command 0b111#3 key1 cipher1, .read 0b10000#5]).port =
      .command (if true then 0b111#3 else 0b110#3) key1 cipher1 :: [.read 0b10000#5] ∧ zero.PH = .idle ∧
    bytesToBits key1 = some 0x133457799BBCDFF1#64 ∧ bytesToBits cipher1 = some 0x85E813540F0AB405#64 ∧
    waitsForIdle [.read 0b10000#5] = true := by decide +kernel
theorem test_witness_CryptfAndCryptrRun :
    (st done [.command 0b010#3 [] block1]).port = .command (if false then 0b011#3 else 0b010#3) [] block1 :: [] ∧
    done.PH = .idle ∧ done.KV = true ∧ bytesToBits block1 = some 0x0123456789ABCDEF#64 ∧ waitsForIdle [] = true := by
  decide +kernel
theorem test_witness_KeygenThenCryptEqualsOneCommand :
    (st done).eng.PH = .idle ∧ key1.length = 8 ∧ block1.length = 8 := by decide
theorem test_witness_PseudoBlockCallsMatchEntryPoints :
    (st done).eng.PH = .idle ∧ ((st (inKs 15 true)).eng.PH ≠ .idle ∧ (st (inKs 15 true)).Inv) ∧ encryptBlock tables [] key1 = .error .invalidInputLength :=
  ⟨rfl, ⟨by decide, test_witness_inv_ks⟩, by decide +kernel⟩
theorem test_witness_PseudoGenerateMatchesKeySchedule :
    (st done).eng.PH = .idle ∧ ((st (inKs 15 true)).eng.PH ≠ .idle ∧ (st (inKs 15 true)).Inv) ∧ generateRoundKeys tables [] = .error .invalidInputLength :=
  ⟨rfl, ⟨by decide, test_witness_inv_ks⟩, by decide +kernel⟩
theorem test_witness_InstancesAreIndependent :
    (0 : Fin 2) ≠ 1 ∧
    stepInstance 0 (Vector.replicate 2 State.reset) = .next ((Vector.replicate 2 State.reset).set 0 State.reset) ∧
    stepSchedule [0, 1] (Vector.replicate 2 State.reset) =
      .next (((Vector.replicate 2 State.reset).set 0 State.reset).set 1 State.reset) := ⟨by decide, rfl, rfl⟩
theorem test_witness_FixedWidthPortsMakeNoLengthError :
    (st zero [.command 0b110#3 key1 block1, .reset]).port.all HostOp.fixedWidth = true ∧
    zero.ECODE ≠ .invalidInputLength ∧ steps 0 (st zero) = .next (st zero) := ⟨by decide, by decide, rfl⟩
theorem test_witness_DecodeAndEncodeAgree :
    (Instr.encrypt key1 [1]).wf = true ∧ decode (.read 0b01111#5) = .ok (.rdrk 15) := ⟨rfl, rfl⟩

end Sys2Proof.Tests
end

section
/-! PROOFS. What single steps do, by the operation that heads the port: the reset event and the accept of a command. -/

namespace Sys2Proof.Machine

/-- With the reset event next, a step applies it (70_reset_and_hazards.md R220). -/
theorem step_of_reset {s : State} {rest : List HostOp} (hport : s.port = .reset :: rest) :
    step s = .next { s with port := rest }.applyReset := by
  simp only [step, nextTurn, hport]

/-- With a command next, an idle engine accepts it (30_encoding.md R72). -/
theorem step_of_command {s : State} {cmd : BitVec 3} {key data : Bytes} {rest : List HostOp}
    (hport : s.port = .command cmd key data :: rest) (hidle : s.eng.PH = .idle) :
    step s = .next { s with eng := s.eng.accept tables cmd key data, port := rest } := by
  have hbusy : s.eng.busy = false := by simp [Engine.busy, hidle]
  have hturn : nextTurn s = .run (.command cmd key data) { s with port := rest } := by
    simp [nextTurn, hport, hbusy]
  simp only [step, hturn, decode, exec_decodeCommand, acceptCommand, hidle, if_true]

end Sys2Proof.Machine
end

section
/-! PROOFS. The sticky error flag `ERRS` (10_state.md R34): what the accept step and the sequencer do to it, then a whole
step. -/

namespace Sys2Proof.Machine

/-- A command other than `NOP` whose accept leaves `ERR = 1` was refused, so `ERRS` is 1. -/
theorem accept_ERRS_of_ERR {T : Tables} {cmd : BitVec 3} {key data : Bytes} {e : Engine} (hcmd : cmd ≠ 0b000#3)
    (herr : (e.accept T cmd key data).ERR = true) : (e.accept T cmd key data).ERRS = true := by
  obtain ⟨hnop, -⟩ | ⟨code, eop, -, -, heq⟩ | ⟨k, b, -, -, -, -, heq⟩ := accept_cases T cmd key data e
  · exact absurd hnop hcmd
  · rw [heq, Engine.fail_ERRS]
  · rw [heq] at herr
    cases k <;> simp at herr

/-- The accept step leaves `ERRS` as it is, or it refused the command: then it sets `ERR` and `ERRS` and stays in the
phase it found. -/
theorem accept_ERRS_eq_or_refused (T : Tables) (cmd : BitVec 3) (key data : Bytes) (e : Engine) :
    (e.accept T cmd key data).ERRS = e.ERRS ∨
    ((e.accept T cmd key data).ERRS = true ∧ (e.accept T cmd key data).ERR = true ∧
      (e.accept T cmd key data).PH = e.PH) := by
  obtain ⟨-, heq⟩ | ⟨code, eop, -, -, heq⟩ | ⟨k, b, -, -, -, -, heq⟩ := accept_cases T cmd key data e
  · exact .inl (by rw [heq])
  · exact .inr (by simp [heq])
  · exact .inl (by cases k <;> simp [heq])

/-- No sequencer step touches `ERRS`. -/
theorem SequencerStep.ERRS_eq {T : Tables} {e e' : Engine} (h : SequencerStep T e e') : e'.ERRS = e.ERRS := by
  cases h <;> simp

/-- Outside the reset event a step leaves `ERRS` as it is, or an idle engine refused a command: then it sets `ERR` and
`ERRS` and stays idle. -/
theorem step_ERRS_eq_or_refused {s t : State} (h : step s = .next t) (hreset : ∀ rest, s.port ≠ .reset :: rest) :
    t.eng.ERRS = s.eng.ERRS ∨
    (t.eng.ERRS = true ∧ t.eng.ERR = true ∧ s.eng.PH = .idle ∧ t.eng.PH = .idle ∧
      ∃ cmd key data rest, s.port = .command cmd key data :: rest) := by
  obtain ⟨rest, hport, -⟩ | ⟨cmd, key, data, rest, hport, hidle, rfl⟩ | ⟨_, _, _, -, -, -, rfl⟩ | ⟨_, -, -, rfl⟩ |
    ⟨_, _, -, hseq, rfl⟩ := step_cases h
  case inl => exact absurd hport (hreset rest)
  case inr.inl =>
    obtain heq | ⟨herrs, herr, hph⟩ := accept_ERRS_eq_or_refused tables cmd key data s.eng
    · exact .inl heq
    · exact .inr ⟨herrs, herr, hidle, hph.trans hidle, cmd, key, data, rest, hport⟩
  case inr.inr.inl => exact .inl rfl
  case inr.inr.inr.inl => exact .inl rfl
  case inr.inr.inr.inr => exact .inl hseq.ERRS_eq

/-- Settles O44: a step outside reset keeps `ERRS` or records a refusal, by the cases of the accept step. -/
theorem stickyErrorWriters : Obligations.StickyErrorWriters := by
  intro s t h
  refine ⟨?_, fun hreset => ⟨?_, ?_, ?_⟩⟩
  · rintro ⟨rest, hport⟩
    cases (step_of_reset hport).symm.trans h
    rfl
  · intro hset
    obtain heq | ⟨herrs, -⟩ := step_ERRS_eq_or_refused h hreset
    · exact heq.trans hset
    · exact herrs
  · intro cmd key data rest hport hidle hcmd herr
    cases (step_of_command hport hidle).symm.trans h
    exact accept_ERRS_of_ERR hcmd herr
  · intro hne
    obtain heq | ⟨-, hrefused⟩ := step_ERRS_eq_or_refused h hreset
    · exact absurd heq hne
    · exact hrefused

end Sys2Proof.Machine
end

section
/-! PROOFS. Systems of several engines (10_state.md R43): a step of one of them is its own step, written back in its
own place. -/

namespace Sys2Proof.Machine

section

variable {m : Nat} {i j : Fin m} {sys t : System m}

/-- When one engine of a system makes a step, and what the system is then. -/
theorem stepInstance_eq_next :
    stepInstance i sys = .next t ↔ ∃ u, step sys[i] = .next u ∧ sys.set i u = t := by
  unfold stepInstance
  cases step sys[i] <;> simp

/-- The empty schedule leaves the system as it is. -/
theorem stepSchedule_nil_eq_next : stepSchedule [] sys = .next t ↔ sys = t := by
  simp [stepSchedule]

/-- A schedule that runs to its end makes its first step, then the rest. -/
theorem stepSchedule_cons_eq_next {js : List (Fin m)} :
    stepSchedule (j :: js) sys = .next t ↔
      ∃ sys', stepInstance j sys = .next sys' ∧ stepSchedule js sys' = .next t := by
  rw [stepSchedule]
  cases stepInstance j sys <;> simp

/-- A step of one engine leaves every other as it is. -/
theorem stepInstance_other (hij : i ≠ j) (h : stepInstance i sys = .next t) : t[j] = sys[j] := by
  obtain ⟨u, -, rfl⟩ := stepInstance_eq_next.mp h
  exact Vector.getElem_set_ne _ _ (Fin.val_ne_of_ne hij)

/-- A step of one engine is the step of that engine alone. -/
theorem stepInstance_own (h : stepInstance i sys = .next t) : step sys[i] = .next t[i] := by
  obtain ⟨u, hu, rfl⟩ := stepInstance_eq_next.mp h
  rw [hu]
  exact congrArg _ (Vector.getElem_set_self _).symm

/-- Two engines that both can make a step make them in either order, with both results written back. -/
theorem stepSchedule_pair_eq_next (hij : i ≠ j) :
    stepSchedule [i, j] sys = .next t ↔
      ∃ u v, step sys[i] = .next u ∧ step sys[j] = .next v ∧ (sys.set i u).set j v = t := by
  have hother (u : State) : (sys.set i u)[j] = sys[j] := Vector.getElem_set_ne _ _ (Fin.val_ne_of_ne hij)
  simp only [stepSchedule_cons_eq_next, stepInstance_eq_next, stepSchedule_nil_eq_next]
  constructor
  · rintro ⟨_, ⟨u, hu, rfl⟩, _, ⟨v, hv, rfl⟩, rfl⟩
    exact ⟨u, v, hu, hother u ▸ hv, rfl⟩
  · rintro ⟨u, v, hu, hv, rfl⟩
    exact ⟨_, ⟨u, hu, rfl⟩, _, ⟨v, (hother u).symm ▸ hv, rfl⟩, rfl⟩

end

/-- Settles O55: a step reads and writes its own engine's place only, and writes to two places commute. -/
theorem instancesAreIndependent : Obligations.InstancesAreIndependent := by
  intro m sys i j hij
  refine ⟨fun t h => ⟨stepInstance_other hij h, stepInstance_own h⟩, fun t h => ?_⟩
  obtain ⟨u, v, hu, hv, rfl⟩ := (stepSchedule_pair_eq_next hij).mp h
  exact (stepSchedule_pair_eq_next hij.symm).mpr
    ⟨v, u, hv, hu, Vector.set_comm _ _ (Fin.val_ne_of_ne hij.symm)⟩

end Sys2Proof.Machine
end

section
/-! PROOFS. Commands that start nothing, accepted in phase `IDLE` (30_encoding.md R75, R76). -/

namespace Sys2Proof.Machine

/-- A command in phase `IDLE` runs the accept step on the engine (R72). -/
theorem acceptCommand_of_idle {s : State} (hidle : s.eng.PH = .idle) (cmd : BitVec 3) (key data : Bytes) :
    acceptCommand cmd key data s = .next { s with eng := s.eng.accept tables cmd key data } :=
  if_pos hidle

/-- The accept of `NOP` leaves the engine as it is. -/
@[simp] theorem accept_nop (T : Tables) (key data : Bytes) (e : Engine) : e.accept T 0b000#3 key data = e :=
  if_pos rfl

/-- The accept of a reserved encoding records `ILLEGAL_COMMAND` and nothing else, before any operand is examined. -/
theorem accept_reserved {cmd : BitVec 3} (hcmd : cmd = 0b001#3 ∨ cmd = 0b101#3) (T : Tables) (key data : Bytes)
    (e : Engine) : e.accept T cmd key data = e.fail .illegalCommand false := by
  have hnop : cmd ≠ 0b000#3 := by rintro rfl; exact absurd hcmd (by decide)
  rw [Engine.accept, if_neg hnop, if_pos hcmd]

/-- Settles O21: the accept step of `NOP` is the identity on the engine. -/
theorem nopChangesNothing : Obligations.NopChangesNothing := by
  intro key data s hidle
  calc exec (.nop key data) s
    _ = .next { s with eng := s.eng.accept tables 0b000#3 key data } := acceptCommand_of_idle hidle _ _ _
    _ = .next s := by rw [accept_nop]

/-- Settles O22: both reserved encodings take the accept step's `fail` branch, which writes the four error fields. -/
theorem reservedCommandsRecordIllegal : Obligations.ReservedCommandsRecordIllegal := by
  intro key data s hidle
  have hrefused {cmd : BitVec 3} (hcmd : cmd = 0b001#3 ∨ cmd = 0b101#3) :
      acceptCommand cmd key data s = .next { s with eng := s.eng.fail .illegalCommand false } := by
    rw [acceptCommand_of_idle hidle, accept_reserved hcmd]
  exact ⟨hrefused (.inl rfl), hrefused (.inr rfl)⟩

end Sys2Proof.Machine
end

section
/-! PROOFS. The reads `RDOUT` and `RDSTAT` (30_encoding.md R79, R80), and the fields of the status word (10_state.md
R29). -/

namespace Sys2Proof.Machine

/-- A read that waits for phase `IDLE` is answered there, and does nothing else (R78). -/
theorem readWhenIdle_of_idle {s : State} (hidle : s.eng.PH = .idle) (a : Engine → ReadAnswer) :
    readWhenIdle a s = .next (s.answer (a s.eng)) :=
  if_pos hidle

/-- Settles O31: in phase `IDLE` the read is answered at once, and `DV` selects its answer. -/
theorem rdoutReturnsResult : Obligations.RdoutReturnsResult := by
  intro s hidle
  have hread : exec .rdout s =
      .next (s.answer (if s.eng.DV then .result (bitsToBytes s.eng.DOUT) else .noValue)) :=
    readWhenIdle_of_idle hidle fun e => if e.DV then .result (bitsToBytes e.DOUT) else .noValue
  constructor
  · intro hvalid
    rw [hread, if_pos hvalid]
    rfl
  · intro hinvalid
    rw [hread, if_neg (by simp [hinvalid])]
    rfl

/-! ### The status word, bit 0 first (R29) -/

/-- `BUSY` is computed: it is 1 exactly outside phase `IDLE` (R30). -/
theorem Engine.busy_eq_true {e : Engine} : e.busy = true ↔ e.PH ≠ .idle := by
  simp [Engine.busy]

/-- The layout of `STATUS`: which flag each bit is. -/
theorem Engine.status_getLsbD (e : Engine) (i : Nat) :
    e.status.getLsbD i =
      if i < 1 then e.busy
      else if i < 2 then e.KV
      else if i < 3 then e.DV
      else if i < 4 then e.ERR
      else if i < 6 then e.ECODE.code.getLsbD (i - 4)
      else if i < 7 then e.EOP
      else decide (i < 8) && e.ERRS := by
  match i with
  | 0 | 1 | 2 | 3 | 4 | 5 | 6 | 7 =>
    simp only [Engine.status, BitVec.getLsbD_append]
    simp
  | n + 8 => simp

/-- Bits 5:4 of `STATUS` are the code of `ECODE`. -/
theorem Engine.status_extract_ECODE (e : Engine) : e.status.extractLsb' 4 2 = e.ECODE.code := by
  ext i hi
  rw [BitVec.getElem_extractLsb']
  obtain rfl | rfl : i = 0 ∨ i = 1 := by omega
  · exact e.status_getLsbD 4
  · exact e.status_getLsbD 5

/-- Settles O32: the word is `STATUS`, and its bits are read off its layout. -/
theorem rdstatReturnsStatus : Obligations.RdstatReturnsStatus := by
  intro s
  have hbit := s.eng.status_getLsbD
  refine ⟨s.eng.status, rfl, ?_, hbit 1, hbit 2, hbit 3, ?_, hbit 6, hbit 7⟩
  · rw [hbit 0]
    exact Engine.busy_eq_true
  · rw [Engine.status_extract_ECODE]
    cases s.eng.ECODE <;> rfl

end Sys2Proof.Machine
end

section
/-! PROOFS. The bit codec (40_bit_codec.md R90 to R93): the value of a bit vector is the sum of its bits, each at its
place value, and byte `i` of an operand is positions `8*i` to `8*i+7` of its bit form. -/

namespace Sys2Proof.Machine

/-! ### Bits and values (R92, R93) -/

/-- Position `i`, counted from the most significant, is the binary digit of weight `2^(n-1-i)`. -/
theorem toNat_bitAt {n : Nat} (v : BitVec n) {i : Nat} (hi : i < n) :
    (bitAt v i).toNat = v.toNat / 2 ^ (n - 1 - i) % 2 := by
  have hbit : bitAt v i = v.toNat.testBit (n - 1 - i) := by
    simp [bitAt, BitVec.getMsbD, BitVec.getLsbD, hi]
  rw [hbit, Nat.toNat_testBit]

/-- The low `n` binary digits of `x`, each at its place value, add up to `x mod 2^n`. -/
theorem sum_binary_digits (x n : Nat) : ∑ i ∈ Finset.range n, x / 2 ^ i % 2 * 2 ^ i = x % 2 ^ n := by
  induction n with
  | zero => simp [Nat.mod_one]
  | succ n ih => rw [Finset.sum_range_succ, ih, Nat.mod_pow_succ, Nat.mul_comm (2 ^ n)]

/-- The unsigned value of a bit vector is its big-endian binary value (R92). -/
theorem toNat_eq_sum_bitAt {n : Nat} (v : BitVec n) :
    v.toNat = ∑ i ∈ Finset.range n, (bitAt v i).toNat * 2 ^ (n - 1 - i) := by
  calc v.toNat
    _ = v.toNat % 2 ^ n := (Nat.mod_eq_of_lt v.isLt).symm
    _ = ∑ i ∈ Finset.range n, v.toNat / 2 ^ i % 2 * 2 ^ i := (sum_binary_digits _ n).symm
    _ = ∑ i ∈ Finset.range n, v.toNat / 2 ^ (n - 1 - i) % 2 * 2 ^ (n - 1 - i) :=
        (Finset.sum_range_reflect (fun i => v.toNat / 2 ^ i % 2 * 2 ^ i) n).symm
    _ = ∑ i ∈ Finset.range n, (bitAt v i).toNat * 2 ^ (n - 1 - i) :=
        Finset.sum_congr rfl fun i hi => by rw [toNat_bitAt v (Finset.mem_range.mp hi)]

/-- Out of range `unsignedToBits` has no result. -/
theorem unsignedToBits_of_le {x n : Nat} (h : 2 ^ n ≤ x) : unsignedToBits x n = none :=
  dif_neg h.not_gt

/-- In range `unsignedToBits` is the vector with that value. -/
theorem unsignedToBits_of_lt {x n : Nat} (h : x < 2 ^ n) : unsignedToBits x n = some (BitVec.ofNatLT x h) :=
  dif_pos h

/-- Settles O2: a position is the binary digit of its weight, the digits add up to the value, and an S-box entry is in
range by its table's shape. -/
theorem unsignedCodecIsBigEndian : Obligations.UnsignedCodecIsBigEndian := by
  refine ⟨fun n v => ⟨toNat_eq_sum_bitAt v, v.isLt⟩, fun x n => unsignedToBits_of_le, fun x n hx => ?_, fun S g => ?_⟩
  · exact ⟨BitVec.ofNatLT x hx, unsignedToBits_of_lt hx, fun i hi => toNat_bitAt (BitVec.ofNatLT x hx) hi⟩
  · exact unsignedToBits_of_lt (sboxValue_lt S g)

/-! ### Bytes and bits (R90, R91) -/

/-- An operand that is not 8 bytes long has no bit form. -/
theorem bytesToBits_of_length_ne {b : Bytes} (h : b.length ≠ 8) : bytesToBits b = none := by
  simpa [h] using bytesToBits_isSome b

/-- An operand of 8 bytes has a bit form. -/
theorem exists_bytesToBits {b : Bytes} (h : b.length = 8) : ∃ v, bytesToBits b = some v :=
  Option.isSome_iff_exists.mp (by simp [bytesToBits_isSome, h])

/-- Position `8*i+j` of an operand's bit form is bit `j` of its byte `i` (R90). -/
theorem bitAt_bytesToBits {b : Bytes} {v : Block} (h : bytesToBits b = some v) {i j : Nat} (hi : i < 8) (hj : j < 8) :
    bitAt v (8 * i + j) = bitAt (b.getD i 0) j := by
  unfold bytesToBits at h
  split at h
  case h_2 => cases h
  case h_1 b0 b1 b2 b3 b4 b5 b6 b7 =>
    cases h
    simp only [bitAt, BitVec.getMsbD_append]
    match i, hi with
    | 0, _ | 1, _ | 2, _ | 3, _ | 4, _ | 5, _ | 6, _ | 7, _ =>
      simp (disch := omega) [if_neg]

/-- `bitsToBytes` gives 8 bytes. -/
@[simp] theorem length_bitsToBytes (v : Block) : (bitsToBytes v).length = 8 := by
  simp [bitsToBytes]

/-- Byte `i` of `bitsToBytes` is positions `8*i` to `8*i+7` (R91). -/
theorem getD_bitsToBytes (v : Block) {i : Nat} (hi : i < 8) : (bitsToBytes v).getD i 0 = slice v (8 * i) 8 := by
  simp [bitsToBytes, List.getD_eq_getElem?_getD, hi]

/-- Bit `j` of byte `i` of `bitsToBytes` is position `8*i+j`. -/
theorem bitAt_getD_bitsToBytes (v : Block) {i j : Nat} (hi : i < 8) (hj : j < 8) :
    bitAt ((bitsToBytes v).getD i 0) j = bitAt v (8 * i + j) := by
  rw [getD_bitsToBytes v hi, bitAt_slice v _ _ _ hj (by omega)]

/-- Settles O1: both directions put bit `j` of byte `i` at position `8*i+j`, and a byte's bits are the binary digits of
its value. -/
theorem codecPlacesByteBits : Obligations.CodecPlacesByteBits := by
  refine ⟨fun b => bytesToBits_of_length_ne, fun b hb => ?_, fun v => ⟨length_bitsToBytes v, fun i hi => ?_⟩⟩
  · obtain ⟨v, hv⟩ := exists_bytesToBits hb
    exact ⟨v, hv, fun i hi j hj => by rw [bitAt_bytesToBits hv hi hj, toNat_bitAt _ hj]⟩
  · rw [toNat_eq_sum_bitAt]
    exact Finset.sum_congr rfl fun j hj => by rw [bitAt_getD_bitsToBytes v hi (Finset.mem_range.mp hj)]

end Sys2Proof.Machine
end

section
/-! PROOFS. One round of the key schedule at the sequencer (42_key_schedule.md R129). -/

namespace Sys2Proof.Machine

/-- A sequencer step that performs a round runs it in its own phase while a round is left. -/
theorem sequencerRound_of_enabled {ph : Phase} {s : State} {i : Fin 16} (hph : s.eng.PH = ph)
    (hround : s.eng.N = i.castSucc) (f : Fin 16 → Engine → Engine) :
    sequencerRound ph f s = .next { s with eng := f i s.eng } := by
  rw [sequencerRound, if_pos hph, roundIndex_eq_some.mpr hround]

/-- Everything a key-schedule round writes, in one record: `KV` and `PH` are written in round 16 only. -/
theorem Engine.ksRound_eq (T : Tables) (i : Fin 16) (e : Engine) :
    e.ksRound T i = { e with
      C := (rotateHalves T i (e.C, e.D)).1
      D := (rotateHalves T i (e.C, e.D)).2
      RK := e.RK.set i (compress T (rotateHalves T i (e.C, e.D)))
      N := i.succ
      KV := if i.val + 1 = 16 then true else e.KV
      PH := if i.val + 1 = 16 then (if e.DRF then .ld else .idle) else e.PH } := by
  by_cases hlast : i.val + 1 = 16
  · simp only [Engine.ksRound, if_pos hlast]
  · simp only [Engine.ksRound, if_neg hlast]

/-- Settles O16: the step is enabled, and what its round writes is one record. -/
theorem ksStepPerformsOneRound : Obligations.KsStepPerformsOneRound := by
  intro s i hph hround C' D'
  have hstep : exec .ksStep s = .next { s with eng := s.eng.ksRound tables i } :=
    sequencerRound_of_enabled hph hround _
  rw [hstep, Engine.ksRound_eq, hph]
  rfl

end Sys2Proof.Machine
end

section
/-! PROOFS. The eight key bits PC-1 drops (42_key_schedule.md R122): what the key schedule and the accept step see of a
key operand is `C0` and `D0`, and those leave out the last bit of each byte. -/

namespace Sys2Proof.Machine

/-- Two keys agree in the 56 bits PC-1 selects: everywhere but in the last bit of each byte. -/
def AgreeOffParity (k k' : Block) : Prop := ∀ i < 64, i % 8 ≠ 7 → bitAt k i = bitAt k' i

/-! ### The key schedule -/

/-- No entry of `PC1` selects the last bit of a byte. -/
theorem pc1_at_not_parity (i : Fin 56) : (tables.pc1.at i - 1) % 8 ≠ 7 := by
  revert i
  decide

/-- `PC1` gives the same 56 bits for keys that agree off parity. -/
theorem AgreeOffParity.permute_pc1_eq {k k' : Block} (h : AgreeOffParity k k') :
    permute tables.pc1 k = permute tables.pc1 k' := by
  refine eq_of_bitAt_eq fun i hi => ?_
  obtain ⟨hpos, hle⟩ := PermTable.at_inRange tables.pc1 ⟨i, hi⟩
  have hlt : tables.pc1.at ⟨i, hi⟩ - 1 < 64 := by omega
  calc bitAt (permute tables.pc1 k) i
    _ = bitAt k (tables.pc1.at ⟨i, hi⟩ - 1) := bitAt_permute _ _ ⟨i, hi⟩
    _ = bitAt k' (tables.pc1.at ⟨i, hi⟩ - 1) := h _ hlt (pc1_at_not_parity ⟨i, hi⟩)
    _ = bitAt (permute tables.pc1 k') i := (bitAt_permute _ _ ⟨i, hi⟩).symm

/-- Keys that agree off parity have the same `C0` and `D0`. -/
theorem AgreeOffParity.initialHalves_eq {k k' : Block} (h : AgreeOffParity k k') :
    initialHalves tables k = initialHalves tables k' := by
  rw [initialHalves, initialHalves, h.permute_pc1_eq]

section

variable {T : Tables} {k k' : Block} (h : initialHalves T k = initialHalves T k')
include h

/-- The key schedule depends on the key through `C0` and `D0` only. -/
theorem keySchedule_eq_of_initialHalves_eq : keySchedule T k = keySchedule T k' := by
  simp only [keySchedule, halvesAfter, h]

/-- A start depends on its key operand through `C0` and `D0` only. -/
theorem Engine.start_eq_of_initialHalves_eq (ks dr rev : Bool) (data : Option Block) (e : Engine) :
    e.start T ks dr rev (some k) data = e.start T ks dr rev (some k') data := by
  simp only [Engine.start, h]

/-- The accept step depends on an 8-byte key operand through `C0` and `D0` only. -/
theorem accept_eq_of_initialHalves_eq {key key' : Bytes} (hk : bytesToBits key = some k)
    (hk' : bytesToBits key' = some k') (cmd : BitVec 3) (data : Bytes) (e : Engine) :
    e.accept T cmd key data = e.accept T cmd key' data := by
  unfold Engine.accept
  cases cmdKS cmd with
  | false => rfl
  | true => simp only [operandBits, if_true, hk, hk', Option.map_some, Engine.start_eq_of_initialHalves_eq h]

end

/-! ### Key operands -/

/-- Bytes with equal halves have the same bits but for the last. -/
theorem bitAt_eq_of_half_eq {b b' : Byte} (h : b.toNat / 2 = b'.toNat / 2) {j : Nat} (hj : j < 7) :
    bitAt b j = bitAt b' j := by
  have hbit (c : Byte) : bitAt c j = (c.toNat / 2).testBit (6 - j) := by
    have hindex : 8 - 1 - j = (6 - j) + 1 := by omega
    have hlt : j < 8 := by omega
    simp [bitAt, BitVec.getMsbD, BitVec.getLsbD, hlt, hindex, Nat.testBit_succ]
  rw [hbit, hbit, h]

/-- Key operands that agree but for the last bit of each byte are keys that agree off parity. -/
theorem agreeOffParity_of_halves_eq {key key' : Bytes} {k k' : Block} (hk : bytesToBits key = some k)
    (hk' : bytesToBits key' = some k')
    (h : ∀ i < 8, (key.getD i 0).toNat / 2 = (key'.getD i 0).toNat / 2) : AgreeOffParity k k' := by
  intro i hi hparity
  have hbyte : i / 8 < 8 := by omega
  rw [← Nat.div_add_mod i 8, bitAt_bytesToBits hk hbyte (by omega), bitAt_bytesToBits hk' hbyte (by omega)]
  exact bitAt_eq_of_half_eq (h _ hbyte) (by omega)

/-- The accept of `KEYGEN` with an 8-byte key is the start of the key schedule (R72, R128). -/
theorem accept_keygen {key : Bytes} {k : Block} (hk : bytesToBits key = some k) (T : Tables) (data : Bytes)
    (e : Engine) : e.accept T 0b100#3 key data = e.start T true false false (some k) none := by
  simp [Engine.accept, cmdKS, cmdDR, cmdREV, operandBits, hk]

/-- Settles O6: `PC1` selects no last bit of a byte, and the key schedule and the accept step see a key only through
`C0` and `D0`; the accept of `KEYGEN` checks the length of its key and nothing else. -/
theorem droppedKeyBitsInfluenceNothing : Obligations.DroppedKeyBitsInfluenceNothing := by
  refine ⟨fun k k' h => ?_, fun key key' hlen hlen' h cmd data s => ?_, fun key data s hlen hidle => ?_⟩
  · have hhalves : initialHalves tables k = initialHalves tables k' := AgreeOffParity.initialHalves_eq h
    exact ⟨hhalves, keySchedule_eq_of_initialHalves_eq hhalves⟩
  · obtain ⟨k, hk⟩ := exists_bytesToBits hlen
    obtain ⟨k', hk'⟩ := exists_bytesToBits hlen'
    have hhalves := (agreeOffParity_of_halves_eq hk hk' h).initialHalves_eq
    simp only [exec_decodeCommand, acceptCommand, accept_eq_of_initialHalves_eq hhalves hk hk']
  · obtain ⟨k, hk⟩ := exists_bytesToBits hlen
    refine ⟨_, acceptCommand_of_idle hidle _ key data, ?_⟩
    simp only [accept_keygen hk, Engine.start_key_ERR]

end Sys2Proof.Machine
end

section
/-! PROOFS. The block cipher driver: one Feistel round as a function (44_block_driver.md R162), then the sequencer's three
steps that run the driver (R171 to R173). -/

namespace Sys2Proof.Machine

/-! ### One Feistel round -/

/-- XOR with the same round function output twice gives the old left half back. -/
theorem feistelRound_left_eq (T : Tables) (lr : HalfBlock × HalfBlock) (K : RoundKey) :
    (feistelRound T lr K).2 ^^^ roundFunction T (feistelRound T lr K).1 K = lr.1 := by
  rw [feistelRound, BitVec.xor_assoc, BitVec.xor_self, BitVec.xor_zero]

/-- Settles O12: the halves are the definition's, and the old left half comes back because XOR cancels. -/
theorem feistelRoundInverts : Obligations.FeistelRoundInverts := by
  intro T Lp Rp Ln Rn K h
  have hleft := feistelRound_left_eq T (Lp, Rp) K
  rw [← h] at hleft
  obtain ⟨hLn, hRn⟩ := Prod.mk.inj h
  exact ⟨hLn, hRn, hLn.symm, hleft.symm⟩

/-! ### The sequencer's steps -/

/-- Settles O17: in its phase the step is `load`, which splits the permuted operand as R161 does. -/
theorem ldStepLoadsHalves : Obligations.LdStepLoadsHalves := by
  intro s hph v
  have hstep : exec .ldStep s = .next { s with eng := s.eng.load tables } := if_pos hph
  rw [hstep, Engine.load, initialSplit]

/-- Everything a round of the driver writes, in one record: `PH` is written in round 16 only. -/
theorem Engine.rndRound_eq (T : Tables) (i : Fin 16) (e : Engine) :
    e.rndRound T i = { e with
      L := e.R
      R := e.L ^^^ roundFunction T e.R e.RK[roundKeyIndex i e.REVF]
      N := i.succ
      PH := if i.val + 1 = 16 then .fin else e.PH } := by
  by_cases hlast : i.val + 1 = 16
  · simp only [Engine.rndRound, feistelRound, if_pos hlast]
  · simp only [Engine.rndRound, feistelRound, if_neg hlast]

/-- Settles O18: the invariant has `KV = 1` in the driver's phases; the step is enabled, and what its round writes is one
record, with the store read at the index of R163. -/
theorem rndStepPerformsOneRound : Obligations.RndStepPerformsOneRound := by
  intro s i k hph hround hk
  refine ⟨fun hinv => ?_, ?_⟩
  · obtain ⟨-, hkv, -⟩ := hinv.driverPhases (.inr (.inl hph))
    exact hkv
  · have hindex : k = roundKeyIndex i s.eng.REVF := Fin.ext hk
    have hstep : exec .rndStep s = .next { s with eng := s.eng.rndRound tables i } :=
      sequencerRound_of_enabled hph hround _
    rw [hstep, Engine.rndRound_eq, hph, hindex]

/-- Settles O19: in its phase after round 16 the step is `finish`, whose operand is the swapped pair of R164. -/
theorem finStepWritesResult : Obligations.FinStepWritesResult := by
  intro s hph hround
  have hstep : exec .finStep s = .next { s with eng := s.eng.finish tables } := if_pos ⟨hph, hround⟩
  rw [hstep, Engine.finish, finalPermutation]

end Sys2Proof.Machine
end

section
/-! PROOFS. Refused commands (60_exceptions.md R193, R197, R199): which check of the accept step reports, check by check in
its order, and what a refusal leaves unchanged. -/

namespace Sys2Proof.Machine

/-! ### The operand checks (30_encoding.md R72) -/

/-- A used operand that is not 8 bytes long fails its check. -/
theorem operandBits_of_bad {used : Bool} {b : Bytes} (h : used = true ∧ b.length ≠ 8) : operandBits used b = none := by
  obtain ⟨rfl, hlen⟩ := h
  rw [operandBits_used, if_neg hlen]

/-- Any other operand passes, and there are operand bits exactly if the operand is used. -/
theorem exists_operandBits_of_not_bad {used : Bool} {b : Bytes} (h : ¬(used = true ∧ b.length ≠ 8)) :
    ∃ o, operandBits used b = some o ∧ o.isSome = used := by
  cases used with
  | false => exact ⟨none, operandBits_unused b, rfl⟩
  | true =>
    have hlen : b.length = 8 := by simpa using h
    obtain ⟨v, hv⟩ := exists_bytesToBits hlen
    exact ⟨some v, by rw [operandBits_used, if_pos hlen, hv, Option.map_some], rfl⟩

/-! ### The start of a command, with a key operand or without -/

section

variable (T : Tables) (ks dr rev : Bool) (k b : Option Block) (e : Engine)

/-- A start ends the error of the command before it and keeps the sticky flag (60_exceptions.md R200). -/
theorem Engine.start_error_fields :
    (e.start T ks dr rev k b).ERR = false ∧ (e.start T ks dr rev k b).ECODE = .none ∧
    (e.start T ks dr rev k b).EOP = false ∧ (e.start T ks dr rev k b).ERRS = e.ERRS := by
  cases k <;> simp

/-- A start with a key operand begins the key schedule, one without begins the driver. -/
theorem Engine.start_PH : (e.start T ks dr rev k b).PH = if k.isSome then .ks else .ld := by
  cases k <;> simp

end

/-! ### The accept step past its first two checks, check by check -/

section

variable {cmd : BitVec 3} {key data : Bytes} {k b : Option Block} {e : Engine} (T : Tables)
  (hnop : cmd ≠ 0b000#3) (hlegal : ¬(cmd = 0b001#3 ∨ cmd = 0b101#3))
include hnop hlegal

/-- The key operand is checked before the data operand and `KV`. -/
theorem accept_of_bad_key (hkey : operandBits (cmdKS cmd) key = none) :
    e.accept T cmd key data = e.fail .invalidInputLength false := by
  rw [Engine.accept, if_neg hnop, if_neg hlegal, hkey]

/-- The data operand is checked next, before `KV`. -/
theorem accept_of_bad_data (hkey : operandBits (cmdKS cmd) key = some k)
    (hdata : operandBits (cmdDR cmd) data = none) :
    e.accept T cmd key data = e.fail .invalidInputLength true := by
  rw [Engine.accept, if_neg hnop, if_neg hlegal, hkey, hdata]

/-- With both operands good, the check of `KV` alone decides. -/
theorem accept_of_good_operands (hkey : operandBits (cmdKS cmd) key = some k)
    (hdata : operandBits (cmdDR cmd) data = some b) :
    e.accept T cmd key data =
      if cmdKS cmd = false ∧ cmdDR cmd = true ∧ e.KV = false then e.fail .keysNotValid false
      else e.start T (cmdKS cmd) (cmdDR cmd) (cmdREV cmd) k b := by
  rw [Engine.accept, if_neg hnop, if_neg hlegal, hkey, hdata]
  simp [and_assoc]

end

/-- Settles O26: each condition is one check of the accept step, and the failed conditions before it are the checks it
passed; the start clears `ERR`, `ECODE` and `EOP`. -/
theorem errorPriority : Obligations.ErrorPriority := by
  intro cmd key data s hidle hnop illegal badKey badData noKeys recorded outcome
  have haccept : outcome = .next { s with eng := s.eng.accept tables cmd key data } :=
    (exec_decodeCommand cmd key data s).trans (acceptCommand_of_idle hidle cmd key data)
  rw [haccept]
  refine ⟨fun hill => ?_, fun hlegal hbad => ?_, fun hlegal hkey hbad => ?_, fun hlegal hkey hdata hno => ?_,
    fun hlegal hkey hdata hno => ?_⟩
  · rw [accept_reserved hill]
    rfl
  · rw [accept_of_bad_key tables hnop hlegal (operandBits_of_bad hbad)]
    rfl
  · obtain ⟨k, hk, -⟩ := exists_operandBits_of_not_bad hkey
    rw [accept_of_bad_data tables hnop hlegal hk (operandBits_of_bad hbad)]
    rfl
  · obtain ⟨k, hk, -⟩ := exists_operandBits_of_not_bad hkey
    obtain ⟨b, hb, -⟩ := exists_operandBits_of_not_bad hdata
    rw [accept_of_good_operands tables hnop hlegal hk hb, if_pos hno]
    rfl
  · obtain ⟨k, hk, hused⟩ := exists_operandBits_of_not_bad hkey
    obtain ⟨b, hb, -⟩ := exists_operandBits_of_not_bad hdata
    rw [accept_of_good_operands tables hnop hlegal hk hb, if_neg hno]
    obtain ⟨herr, hecode, heop, herrs⟩ := s.eng.start_error_fields tables (cmdKS cmd) (cmdDR cmd) (cmdREV cmd) k b
    exact ⟨_, rfl, herr, hecode, heop, herrs, by rw [Engine.start_PH, hused]⟩

/-! ### What a refusal leaves unchanged -/

/-- A command other than `NOP` whose accept leaves `ERR = 1` was refused: all its accept did was `fail`. -/
theorem accept_eq_fail_of_ERR {T : Tables} {cmd : BitVec 3} {key data : Bytes} {e : Engine} (hcmd : cmd ≠ 0b000#3)
    (herr : (e.accept T cmd key data).ERR = true) : ∃ code eop, e.accept T cmd key data = e.fail code eop := by
  obtain ⟨hnop, -⟩ | ⟨code, eop, -, -, heq⟩ | ⟨k, b, -, -, -, -, heq⟩ := accept_cases T cmd key data e
  · exact absurd hnop hcmd
  · exact ⟨code, eop, heq⟩
  · obtain ⟨hclear, -⟩ := e.start_error_fields T (cmdKS cmd) (cmdDR cmd) (cmdREV cmd) k b
    rw [heq, hclear] at herr
    cases herr

/-- Settles O27: a command that leaves `ERR = 1` was refused by `fail`, which writes the four error fields only. -/
theorem refusalChangesOnlyErrorFields : Obligations.RefusalChangesOnlyErrorFields := by
  intro cmd key data s t hidle hcmd hexec herr
  rw [exec_decodeCommand, acceptCommand_of_idle hidle] at hexec
  cases hexec
  obtain ⟨code, eop, hfail⟩ := accept_eq_fail_of_ERR hcmd herr
  simp only [hfail]
  rfl

end Sys2Proof.Machine
end

section
/-! PROOFS. The round trips of the codec (40_bit_codec.md R94): two byte sequences with the same bits are equal, and so
are two bit vectors with the same bytes. -/

namespace Sys2Proof.Machine

/-- The bytes of an operand's bit form are the operand. -/
theorem bitsToBytes_of_bytesToBits {b : Bytes} {v : Block} (h : bytesToBits b = some v) : bitsToBytes v = b := by
  have hlen : b.length = 8 := by simpa [h] using bytesToBits_isSome b
  refine List.ext_getElem (by simp [hlen]) fun i hi hib => ?_
  have hi8 : i < 8 := by simpa using hi
  rw [← List.getD_eq_getElem _ 0 hi, ← List.getD_eq_getElem _ 0 hib]
  refine eq_of_bitAt_eq fun j hj => ?_
  rw [bitAt_getD_bitsToBytes v hi8 hj, bitAt_bytesToBits h hi8 hj]

/-- The bit form of a vector's bytes is the vector. -/
theorem bytesToBits_bitsToBytes (v : Block) : bytesToBits (bitsToBytes v) = some v := by
  obtain ⟨w, hw⟩ := exists_bytesToBits (length_bitsToBytes v)
  have hwv : w = v := by
    refine eq_of_bitAt_eq fun i hi => ?_
    rw [← Nat.div_add_mod i 8, bitAt_bytesToBits hw (by omega) (by omega),
      bitAt_getD_bitsToBytes v (by omega) (by omega)]
  rw [hw, hwv]

/-- Settles O3: each direction keeps every bit in its place, and a number in range is the value of its vector. -/
theorem codecRoundTrips : Obligations.CodecRoundTrips := by
  refine ⟨fun b hb => ?_, bytesToBits_bitsToBytes, fun n v => ?_, fun x n hx => ?_⟩
  · obtain ⟨v, hv⟩ := exists_bytesToBits hb
    rw [hv, Option.map_some, bitsToBytes_of_bytesToBits hv]
  · exact unsignedToBits_of_lt v.isLt
  · rw [unsignedToBits_of_lt hx]
    rfl

end Sys2Proof.Machine
end

section
/-! PROOFS. Positions of bit vectors through concatenation, slices, complement and constant vectors, and what `PERMUTE`
does to each (00_scope.md R9, 41_tables.md R100). -/

namespace Sys2Proof.Machine

/-! ### Concatenation and slices -/

/-- The positions of a concatenation: the first vector's, then the second's. -/
theorem bitAt_append {m n : Nat} (v : BitVec m) (w : BitVec n) (i : Nat) :
    bitAt (v ++ w) i = if i < m then bitAt v i else bitAt w (i - m) := by
  rw [bitAt, BitVec.getMsbD_append]
  by_cases hi : i < m
  · simp [hi, bitAt]
  · simp [hi, bitAt]

/-- The first part of a concatenation. -/
@[simp] theorem slice_append_left {m n : Nat} (v : BitVec m) (w : BitVec n) : slice (v ++ w) 0 m = v := by
  refine eq_of_bitAt_eq fun i hi => ?_
  rw [bitAt_slice _ _ _ _ hi (by omega), bitAt_append, Nat.zero_add, if_pos hi]

/-- The second part of a concatenation. -/
@[simp] theorem slice_append_right {m n : Nat} (v : BitVec m) (w : BitVec n) : slice (v ++ w) m n = w := by
  refine eq_of_bitAt_eq fun i hi => ?_
  rw [bitAt_slice _ _ _ _ hi le_rfl, bitAt_append, if_neg (by omega), Nat.add_sub_cancel_left]

/-- A vector is the concatenation of its two parts. -/
theorem slice_append_slice {m n : Nat} (v : BitVec (m + n)) : slice v 0 m ++ slice v m n = v := by
  refine eq_of_bitAt_eq fun i hi => ?_
  rw [bitAt_append]
  split
  case isTrue him => rw [bitAt_slice _ _ _ _ him (by omega), Nat.zero_add]
  case isFalse him =>
    rw [bitAt_slice _ _ _ _ (by omega) le_rfl, Nat.add_sub_cancel' (Nat.le_of_not_lt him)]

/-! ### Complement -/

/-- Complement flips every position. -/
theorem bitAt_not {n : Nat} (v : BitVec n) {i : Nat} (hi : i < n) : bitAt (~~~v) i = !bitAt v i := by
  simp [bitAt, BitVec.getMsbD_not, hi]

/-- A slice of the complement is the complement of the slice. -/
theorem slice_not {n : Nat} (v : BitVec n) (a len : Nat) (ha : a + len ≤ n) :
    slice (~~~v) a len = ~~~slice v a len := by
  refine eq_of_bitAt_eq fun i hi => ?_
  rw [bitAt_slice _ _ _ _ hi ha, bitAt_not _ (by omega), bitAt_not _ hi, bitAt_slice _ _ _ _ hi ha]

/-! ### `PERMUTE` -/

section

variable {m n : Nat} (T : PermTable m n)

/-- A 0-based source index is a position of the input. -/
theorem PermTable.at_sub_one_lt (i : Fin m) : T.at i - 1 < n := by
  have hrange := PermTable.at_inRange T i
  omega

/-- `PERMUTE` commutes with complement. -/
theorem permute_not (v : BitVec n) : permute T (~~~v) = ~~~permute T v := by
  refine eq_of_bitAt_eq fun i hi => ?_
  rw [bitAt_not _ hi, bitAt_permute T _ ⟨i, hi⟩, bitAt_permute T _ ⟨i, hi⟩, bitAt_not _ (PermTable.at_sub_one_lt T _)]

end

/-- Two tables that are inverse entry by entry (R102) permute back. -/
theorem permute_permute_of_inverse {n : Nat} {S T : PermTable n n}
    (h : ∀ i : Fin n, T.entries[S.at i - 1]? = some (i.val + 1)) (v : BitVec n) : permute S (permute T v) = v := by
  refine eq_of_bitAt_eq fun i hi => ?_
  have hat : T.at ⟨S.at ⟨i, hi⟩ - 1, PermTable.at_sub_one_lt S ⟨i, hi⟩⟩ = i + 1 :=
    (List.getElem?_eq_some_iff.mp (h ⟨i, hi⟩)).2
  rw [bitAt_permute S _ ⟨i, hi⟩, bitAt_permute T v ⟨_, PermTable.at_sub_one_lt S ⟨i, hi⟩⟩, hat, Nat.add_sub_cancel]

section

variable {T : Tables} (h : T.FpInvertsIp) (v : Block)
include h

/-- `FP` undoes `IP` (R107). -/
theorem permute_fp_ip : permute T.fp (permute T.ip v) = v := permute_permute_of_inverse (fun i => (h i).1) v

/-- `IP` undoes `FP` (R107). -/
theorem permute_ip_fp : permute T.ip (permute T.fp v) = v := permute_permute_of_inverse (fun i => (h i).2) v

end

/-- Settles O4: the entry-wise condition says that each table reads the other's source index back. -/
theorem finalPermutationUndoesInitial : Obligations.FinalPermutationUndoesInitial :=
  ⟨tables_fpInvertsIp, fun _ h v => ⟨permute_fp_ip h v, permute_ip_fp h v⟩⟩

/-! ### Constant vectors -/

/-- The vector of `n` equal bits. -/
def uniform (n : Nat) (x : Bool) : BitVec n := if x then BitVec.allOnes n else 0

/-- Every position of a constant vector holds its bit. -/
theorem bitAt_uniform {n : Nat} (x : Bool) {i : Nat} (hi : i < n) : bitAt (uniform n x) i = x := by
  cases x
  · simp [uniform, bitAt]
  · simp [uniform, bitAt, BitVec.getMsbD_allOnes, hi]

/-- A vector with one bit at all its positions is constant. -/
theorem eq_uniform {n : Nat} {v : BitVec n} {x : Bool} (h : ∀ i < n, bitAt v i = x) : v = uniform n x :=
  eq_of_bitAt_eq fun i hi => by rw [h i hi, bitAt_uniform x hi]

/-- `PERMUTE` takes constant vectors to constant vectors. -/
theorem permute_uniform {m n : Nat} (T : PermTable m n) (x : Bool) : permute T (uniform n x) = uniform m x :=
  eq_uniform fun i hi => by rw [bitAt_permute T _ ⟨i, hi⟩, bitAt_uniform x (PermTable.at_sub_one_lt T _)]

/-- A concatenation of constant vectors of one bit is constant. -/
theorem uniform_append (m n : Nat) (x : Bool) : uniform m x ++ uniform n x = uniform (m + n) x := by
  refine eq_uniform fun i hi => ?_
  rw [bitAt_append]
  split
  case isTrue him => exact bitAt_uniform x him
  case isFalse him => exact bitAt_uniform x (by omega)

/-! ### The expansion (43_round_function.md R141) -/

/-- Entry `6*i+j` of `E` is position `4*i+j-1` modulo 32, 0-based. -/
theorem e_at_sub_one :
    ∀ (i : Fin 8) (j : Fin 6), tables.e.at ⟨6 * i.val + j.val, by omega⟩ - 1 = (4 * i.val + j.val + 31) % 32 := by
  decide

/-- Settles O10: the closed form is the table's, entry by entry, and constant inputs stay constant. -/
theorem expansionClosedForm : Obligations.ExpansionClosedForm := by
  refine ⟨fun r i hi j hj => ?_, permute_uniform tables.e false, permute_uniform tables.e true, by decide +kernel⟩
  rw [bitAt_permute tables.e r ⟨6 * i + j, by omega⟩, e_at_sub_one ⟨i, hi⟩ ⟨j, hj⟩]

end Sys2Proof.Machine
end

section
/-! PROOFS. The 28-bit rotator (42_key_schedule.md R123) and the halves as one cumulative rotation (R126). -/

namespace Sys2Proof.Machine

/-! ### The rotator -/

/-- Position `i` of a rotation by `s`, for every amount. -/
theorem bitAt_rotl28 (v : HalfKey) (s : Nat) {i : Nat} (hi : i < 28) :
    bitAt (rotl28 v s) i = bitAt v ((i + s) % 28) := by
  have hs : s % 28 < 28 := Nat.mod_lt _ (by omega)
  rw [rotl28, bitAt, bitAt, BitVec.getMsbD_rotateLeft]
  simp only [hi, decide_true, Bool.true_and, Nat.add_comm i s]

/-- Rotations add up. -/
theorem rotl28_rotl28 (v : HalfKey) (a b : Nat) : rotl28 (rotl28 v a) b = rotl28 v (a + b) := by
  refine eq_of_bitAt_eq fun i hi => ?_
  rw [bitAt_rotl28 _ _ hi, bitAt_rotl28 _ _ (Nat.mod_lt _ (by omega)), bitAt_rotl28 _ _ hi, Nat.mod_add_mod,
    Nat.add_assoc, Nat.add_comm b a]

@[simp] theorem rotl28_zero (v : HalfKey) : rotl28 v 0 = v :=
  eq_of_bitAt_eq fun i hi => by rw [bitAt_rotl28 _ _ hi, Nat.add_zero, Nat.mod_eq_of_lt hi]

/-- A rotation by the whole width is none. -/
@[simp] theorem rotl28_width (v : HalfKey) : rotl28 v 28 = v :=
  eq_of_bitAt_eq fun i hi => by rw [bitAt_rotl28 _ _ hi, Nat.add_mod_right, Nat.mod_eq_of_lt hi]

/-- `n` rotations by 1 are one rotation by `n`. -/
theorem iterate_rotl28_one (v : HalfKey) (n : Nat) : (fun w => rotl28 w 1)^[n] v = rotl28 v n := by
  induction n with
  | zero => simp
  | succ n ih => rw [Function.iterate_succ_apply', ih, rotl28_rotl28]

/-- A constant half does not change. -/
theorem rotl28_uniform (x : Bool) (s : Nat) : rotl28 (uniform 28 x) s = uniform 28 x :=
  eq_uniform fun i hi => by rw [bitAt_rotl28 _ _ hi, bitAt_uniform x (Nat.mod_lt _ (by omega))]

/-- The positions a rotation reads are all positions, rotated. -/
theorem map_add_mod_range (s : Nat) :
    (List.range 28).map (fun i => (i + s) % 28) = (List.range 28).rotate s := by
  refine List.ext_getElem (by simp) fun i h h' => ?_
  simp [List.getElem_rotate]

/-- A rotation keeps the number of 1 bits. -/
theorem countP_rotl28 (v : HalfKey) (s : Nat) :
    (List.range 28).countP (fun i => bitAt (rotl28 v s) i) = (List.range 28).countP (fun i => bitAt v i) :=
  calc (List.range 28).countP (fun i => bitAt (rotl28 v s) i)
    _ = (List.range 28).countP (fun i => bitAt v ((i + s) % 28)) :=
        List.countP_congr fun i hi => by rw [bitAt_rotl28 v s (List.mem_range.mp hi)]
    _ = ((List.range 28).map fun i => (i + s) % 28).countP (fun i => bitAt v i) := List.countP_map.symm
    _ = (List.range 28).countP (fun i => bitAt v i) := by
        rw [map_add_mod_range, (List.rotate_perm _ s).countP_eq]

/-- Settles O5: every clause is read off the positions of a rotation, whose amounts add up modulo 28. -/
theorem rotatorMovesPositions : Obligations.RotatorMovesPositions := by
  refine ⟨fun v s _ i hi => bitAt_rotl28 v s hi, fun v => (rotl28_rotl28 v 1 1).symm, fun v => ?_,
    fun s => ⟨rotl28_uniform false s, rotl28_uniform true s⟩, countP_rotl28⟩
  rw [iterate_rotl28_one, rotl28_width]

/-! ### The halves after `n` rounds -/

/-- The total rotation of the first `n` rounds. -/
def totalShift (T : Tables) (n : Nat) : Nat := (T.leftShifts.amounts.take n).sum

/-- One more round adds its own amount. -/
theorem totalShift_succ (T : Tables) (i : Fin 16) :
    totalShift T (i.val + 1) = totalShift T i.val + T.leftShifts.at i := by
  have hi : i.val < T.leftShifts.amounts.length := by rw [T.leftShifts.length_eq]; exact i.isLt
  exact List.sum_take_succ _ _ hi

/-- The halves after `n` rounds are the initial ones, rotated by the total amount. -/
theorem halvesAfter_eq_rotl28 (T : Tables) (k : Block) (n : Fin 17) :
    halvesAfter T k n =
      (rotl28 (initialHalves T k).1 (totalShift T n.val), rotl28 (initialHalves T k).2 (totalShift T n.val)) := by
  induction n using Fin.induction with
  | zero => simp [totalShift]
  | succ i ih =>
    rw [halvesAfter_succ, ih, Fin.val_succ, totalShift_succ, ← rotl28_rotl28, ← rotl28_rotl28]
    rfl

/-- Round key `i` from the total amount directly. -/
theorem keySchedule_get_eq_rotl28 (T : Tables) (k : Block) (i : Fin 16) :
    (keySchedule T k)[i] =
      permute T.pc2 (rotl28 (initialHalves T k).1 (totalShift T (i.val + 1)) ++
        rotl28 (initialHalves T k).2 (totalShift T (i.val + 1))) := by
  rw [keySchedule_get, halvesAfter_eq_rotl28, compress, Fin.val_succ]

/-- After sixteen rounds of the standard amounts, 28 in all, the halves are the initial ones. -/
theorem halvesAfter_last (k : Block) : halvesAfter tables k 16 = initialHalves tables k := by
  have htotal : totalShift tables (16 : Fin 17).val = 28 := tables_checked.shiftSum
  rw [halvesAfter_eq_rotl28, htotal, rotl28_width, rotl28_width]

/-- Settles O7: the rounds' rotations add up, and the standard amounts to 28. -/
theorem rotationIsCumulative : Obligations.RotationIsCumulative :=
  ⟨halvesAfter_eq_rotl28 tables, by decide, halvesAfter_last, keySchedule_get_eq_rotl28 tables⟩

/-! ### The two halves of a round key (R125) -/

/-- The first 24 entries of `PC2` select from `C`, the last 24 from `D`. -/
theorem pc2_at_lt_iff (i : Fin 48) : tables.pc2.at i - 1 < 28 ↔ i.val < 24 := by
  revert i
  decide

/-- Settles O8: below position 24 every source is a position of `C`, from there on one of `D`. -/
theorem roundKeyHalvesAreSeparate : Obligations.RoundKeyHalvesAreSeparate := by
  intro c c' d d'
  constructor
  · refine eq_of_bitAt_eq fun i hi => ?_
    have hsource : tables.pc2.at ⟨i, by omega⟩ - 1 < 28 := (pc2_at_lt_iff _).mpr hi
    simp only [compress, bitAt_slice _ _ _ _ hi (by omega : 0 + 24 ≤ 48), Nat.zero_add]
    rw [bitAt_permute _ _ ⟨i, by omega⟩, bitAt_permute _ _ ⟨i, by omega⟩, bitAt_append, bitAt_append,
      if_pos hsource, if_pos hsource]
  · refine eq_of_bitAt_eq fun i hi => ?_
    have hsource : ¬tables.pc2.at ⟨24 + i, by omega⟩ - 1 < 28 := by rw [pc2_at_lt_iff]; simp
    simp only [compress, bitAt_slice _ _ _ _ hi (by omega : 24 + 24 ≤ 48)]
    rw [bitAt_permute _ _ ⟨24 + i, by omega⟩, bitAt_permute _ _ ⟨24 + i, by omega⟩, bitAt_append, bitAt_append,
      if_neg hsource, if_neg hsource]

end Sys2Proof.Machine
end

section
/-! PROOFS. The driver run backwards (44_block_driver.md R174): the rounds of the opposite order undo those of an order,
one by one, on the swapped halves. -/

namespace Sys2Proof.Machine

/-- The opposite order reads the keys backwards. -/
theorem roundKeyIndex_not (i : Fin 16) (rev : Bool) : roundKeyIndex i (!rev) = roundKeyIndex i.rev rev := by
  have hi := i.isLt
  cases rev
  · exact Fin.ext (by simp [roundKeyIndex, Fin.val_rev])
  · exact Fin.ext (by simp [roundKeyIndex, Fin.val_rev]; omega)

/-- A Feistel round on the swapped result of one with the same key gives the swapped halves it started from (R162). -/
theorem feistelRound_swap (T : Tables) (lr : HalfBlock × HalfBlock) (K : RoundKey) :
    feistelRound T (feistelRound T lr K).swap K = lr.swap :=
  Prod.ext rfl (feistelRound_left_eq T lr K)

section

variable {T : Tables} (hT : T.FpInvertsIp)
include hT

/-- The initial split of a final permutation is the swapped pair of halves. -/
theorem initialSplit_finalPermutation (lr : HalfBlock × HalfBlock) :
    initialSplit T (finalPermutation T lr) = lr.swap := by
  simp only [initialSplit, finalPermutation, permute_ip_fp hT, slice_append_left, slice_append_right]
  rfl

/-- The final permutation of a swapped initial split is the block. -/
theorem finalPermutation_swap_initialSplit (b : Block) : finalPermutation T (initialSplit T b).swap = b := by
  simp only [finalPermutation, initialSplit, Prod.fst_swap, Prod.snd_swap, slice_append_slice (m := 32) (n := 32),
    permute_fp_ip hT]

/-- Round by round the opposite order runs through the swapped halves backwards. -/
theorem roundsAfter_crypt (b : Block) (K : Vector RoundKey 16) (rev : Bool) (m : Fin 17) :
    roundsAfter T (crypt T b K rev) K (!rev) m = (roundsAfter T b K rev m.rev).swap := by
  induction m using Fin.induction with
  | zero => exact initialSplit_finalPermutation hT _
  | succ i ih =>
    have hrev : i.castSucc.rev = i.rev.succ := Fin.rev_castSucc i
    simp only [roundsAfter_succ, ih, hrev, roundKeyIndex_not, feistelRound_swap, Fin.rev_succ]

/-- The driver in the opposite order undoes the driver. -/
theorem crypt_crypt (b : Block) (K : Vector RoundKey 16) (rev : Bool) : crypt T (crypt T b K rev) K (!rev) = b := by
  have hlast : roundsAfter T (crypt T b K rev) K (!rev) 16 = (initialSplit T b).swap := by
    rw [roundsAfter_crypt hT, show (16 : Fin 17).rev = 0 from rfl, roundsAfter_zero]
  calc crypt T (crypt T b K rev) K (!rev)
    _ = finalPermutation T (initialSplit T b).swap := congrArg (finalPermutation T) hlast
    _ = b := finalPermutation_swap_initialSplit hT b

end

/-! ### The entry points -/

/-- An 8-byte operand in its bit form. -/
theorem sizedBits_ok {b : Bytes} {v : Block} (h : bytesToBits b = some v) : sizedBits b = .ok v := by
  rw [sizedBits, h]

/-- Any other operand is refused (60_exceptions.md R191). -/
theorem sizedBits_error {b : Bytes} (h : b.length ≠ 8) : sizedBits b = .error .invalidInputLength := by
  rw [sizedBits, bytesToBits_of_length_ne h]

section

variable (T : Tables) (rev : Bool) {block key : Bytes}

/-- On 8-byte operands the entry point is the driver (R169). -/
theorem cryptBlock_ok {k b : Block} (hkey : bytesToBits key = some k) (hblock : bytesToBits block = some b) :
    cryptBlock T rev block key = .ok (bitsToBytes (crypt T b (keySchedule T k) rev)) := by
  rw [cryptBlock, sizedBits_ok hkey, sizedBits_ok hblock]

/-- With an operand of another length it has no result. -/
theorem cryptBlock_error (h : ¬(key.length = 8 ∧ block.length = 8)) :
    cryptBlock T rev block key = .error .invalidInputLength := by
  by_cases hkey : key.length = 8
  · obtain ⟨k, hk⟩ := exists_bytesToBits hkey
    rw [cryptBlock, sizedBits_ok hk, sizedBits_error fun hblock => h ⟨hkey, hblock⟩]
  · rw [cryptBlock, sizedBits_error hkey]

/-- The entry point in one order, on 8-byte operands, has an 8-byte result that the other order turns back. -/
theorem cryptBlock_inverse {T : Tables} (hT : T.FpInvertsIp) (hblock : block.length = 8) (hkey : key.length = 8) :
    ∃ out, cryptBlock T rev block key = .ok out ∧ out.length = 8 ∧ cryptBlock T (!rev) out key = .ok block := by
  obtain ⟨k, hk⟩ := exists_bytesToBits hkey
  obtain ⟨b, hb⟩ := exists_bytesToBits hblock
  refine ⟨_, cryptBlock_ok T rev hk hb, length_bitsToBytes _, ?_⟩
  rw [cryptBlock_ok T (!rev) hk (bytesToBits_bitsToBytes _), crypt_crypt hT, bitsToBytes_of_bytesToBits hb]

end

/-- Settles O13: by the induction over the rounds, in either direction. -/
theorem decryptionUndoesEncryption : Obligations.DecryptionUndoesEncryption := fun _ hT =>
  ⟨fun _ _ => cryptBlock_inverse false hT, fun _ _ => cryptBlock_inverse true hT,
    fun b K m => roundsAfter_crypt hT b K false m⟩

/-- `generateRoundKeys` on an 8-byte key is the key schedule (42_key_schedule.md R127). -/
theorem generateRoundKeys_ok (T : Tables) {key : Bytes} {k : Block} (hkey : bytesToBits key = some k) :
    generateRoundKeys T key = .ok (keySchedule T k) := by
  rw [generateRoundKeys, sizedBits_ok hkey]

/-- `generateRoundKeys` on a key of another length has no result. -/
theorem generateRoundKeys_error (T : Tables) {key : Bytes} (hkey : key.length ≠ 8) :
    generateRoundKeys T key = .error .invalidInputLength := by
  rw [generateRoundKeys, sizedBits_error hkey]

/-- Settles O15: an operand has a bit form exactly if it is 8 bytes long. -/
theorem entryPointsCheckLengths : Obligations.EntryPointsCheckLengths := by
  intro T rev block key
  refine ⟨⟨fun ⟨hkey, hblock⟩ => ?_, cryptBlock_error T rev⟩, fun hkey => ?_, generateRoundKeys_error T⟩
  · obtain ⟨k, hk⟩ := exists_bytesToBits hkey
    obtain ⟨b, hb⟩ := exists_bytesToBits hblock
    exact ⟨_, cryptBlock_ok T rev hk hb, length_bitsToBytes _⟩
  · obtain ⟨k, hk⟩ := exists_bytesToBits hkey
    exact ⟨_, generateRoundKeys_ok T hk⟩

/-! ### Keys of 56 equal bits (42_key_schedule.md R131) -/

section

variable {k : Block} {x : Bool} (h : ∀ i < 64, i % 8 ≠ 7 → bitAt k i = x)
include h

/-- The halves of such a key are constant. -/
theorem initialHalves_uniform : initialHalves tables k = (uniform 28 x, uniform 28 x) := by
  have hagree : AgreeOffParity k (uniform 64 x) := fun i hi hparity => by rw [h i hi hparity, bitAt_uniform x hi]
  have hslice (a : Nat) (ha : a + 28 ≤ 56) : slice (uniform 56 x) a 28 = uniform 28 x :=
    eq_uniform fun i hi => by rw [bitAt_slice _ _ _ _ hi ha, bitAt_uniform x (by omega)]
  rw [hagree.initialHalves_eq]
  simp only [initialHalves, permute_uniform, hslice 0 (by omega), hslice 28 (by omega)]

/-- So are its round keys. -/
theorem keySchedule_uniform (j : Fin 16) : (keySchedule tables k)[j] = uniform 48 x := by
  rw [keySchedule_get_eq_rotl28, initialHalves_uniform h, rotl28_uniform, uniform_append, permute_uniform]

end

/-- With all round keys equal the rounds do not see their order. -/
theorem roundsAfter_eq_of_equal_keys (T : Tables) (b : Block) {K : Vector RoundKey 16} {c : RoundKey}
    (h : ∀ j : Fin 16, K[j] = c) (rev rev' : Bool) (n : Fin 17) :
    roundsAfter T b K rev n = roundsAfter T b K rev' n := by
  induction n using Fin.induction with
  | zero => rw [roundsAfter_zero, roundsAfter_zero]
  | succ i ih => rw [roundsAfter_succ, roundsAfter_succ, ih, h, h]

/-- Settles O9: all round keys are equal, so either order is the opposite one, which undoes it. -/
theorem uniformKeyIsSelfInverse : Obligations.UniformKeyIsSelfInverse := by
  intro k x h
  have hkeys := keySchedule_uniform h
  have horder (b : Block) : crypt tables b (keySchedule tables k) false = crypt tables b (keySchedule tables k) true :=
    congrArg (finalPermutation tables) (roundsAfter_eq_of_equal_keys tables b hkeys false true 16)
  refine ⟨hkeys, fun b => ⟨horder b, ?_⟩⟩
  rw [horder (crypt tables b _ false)]
  exact crypt_crypt tables_fpInvertsIp b _ false

end Sys2Proof.Machine
end

section
/-! PROOFS. Complementation (44_block_driver.md R180) and the lanes of the S-box bank (43_round_function.md R143 to
R147). -/

namespace Sys2Proof.Machine

/-! ### Complementing key and block -/

/-- The complement of both halves. -/
def complementPair {n : Nat} (p : BitVec n × BitVec n) : BitVec n × BitVec n := (~~~p.1, ~~~p.2)

/-- The sum of the complements is the sum. -/
theorem not_xor_not {n : Nat} (v w : BitVec n) : ~~~v ^^^ ~~~w = v ^^^ w := by
  ext i
  simp

/-- A rotation of the complement is the complement of the rotation. -/
theorem rotl28_not (v : HalfKey) (s : Nat) : rotl28 (~~~v) s = ~~~rotl28 v s := by
  refine eq_of_bitAt_eq fun i hi => ?_
  rw [bitAt_rotl28 _ _ hi, bitAt_not _ (Nat.mod_lt _ (by omega)), bitAt_not _ hi, bitAt_rotl28 _ _ hi]

/-- A concatenation of complements is the complement of the concatenation. -/
theorem not_append_not {m n : Nat} (v : BitVec m) (w : BitVec n) : ~~~v ++ ~~~w = ~~~(v ++ w) :=
  BitVec.not_append.symm

section

variable (T : Tables)

/-- The halves of the complemented key. -/
theorem halvesAfter_not (k : Block) (n : Fin 17) : halvesAfter T (~~~k) n = complementPair (halvesAfter T k n) := by
  induction n using Fin.induction with
  | zero =>
    simp only [halvesAfter_zero, initialHalves, complementPair, permute_not]
    exact Prod.ext (slice_not _ 0 28 (by omega)) (slice_not _ 28 28 (by omega))
  | succ i ih =>
    rw [halvesAfter_succ, halvesAfter_succ, ih]
    exact Prod.ext (rotl28_not _ _) (rotl28_not _ _)

/-- The round keys of the complemented key. -/
theorem keySchedule_not (k : Block) (j : Fin 16) : (keySchedule T (~~~k))[j] = ~~~(keySchedule T k)[j] := by
  rw [keySchedule_get, keySchedule_get, halvesAfter_not, compress, complementPair, not_append_not, permute_not,
    compress]

/-- The key addition cancels the complement, so the round function does not see it. -/
theorem roundFunction_not (r : HalfBlock) (K : RoundKey) : roundFunction T (~~~r) (~~~K) = roundFunction T r K := by
  rw [roundFunction, permute_not, not_xor_not, roundFunction]

/-- A round on complemented halves with the complemented key. -/
theorem feistelRound_not (lr : HalfBlock × HalfBlock) (K : RoundKey) :
    feistelRound T (complementPair lr) (~~~K) = complementPair (feistelRound T lr K) := by
  refine Prod.ext rfl ?_
  simp only [feistelRound, complementPair, roundFunction_not]
  exact (BitVec.not_xor_left ..).symm

/-- The halves of the complemented block under complemented round keys. -/
theorem roundsAfter_not (b : Block) {K K' : Vector RoundKey 16} (hK : ∀ j : Fin 16, K'[j] = ~~~K[j]) (rev : Bool)
    (n : Fin 17) : roundsAfter T (~~~b) K' rev n = complementPair (roundsAfter T b K rev n) := by
  induction n using Fin.induction with
  | zero =>
    simp only [roundsAfter_zero, initialSplit, complementPair, permute_not]
    exact Prod.ext (slice_not _ 0 32 (by omega)) (slice_not _ 32 32 (by omega))
  | succ i ih => rw [roundsAfter_succ, roundsAfter_succ, ih, hK, feistelRound_not]

end

/-- Settles O14: the complement passes through every permutation, slice and rotation, and cancels in each key addition;
by induction over the rounds. -/
theorem complementationHolds : Obligations.ComplementationHolds := by
  refine fun T => ⟨roundFunction_not T, fun b k rev => ?_⟩
  rw [crypt, roundsAfter_not T b (keySchedule_not T k), finalPermutation, complementPair, not_append_not, permute_not,
    crypt, finalPermutation]

/-! ### The S-box bank -/

/-- The row is the first bit of the group, then the last (R144). -/
theorem sboxRow_eq (g : BitVec 6) : sboxRow g = 2 * (bitAt g 0).toNat + (bitAt g 5).toNat := by
  have h0 : bitAt (slice g 0 1 ++ slice g 5 1) 0 = bitAt g 0 := by
    rw [bitAt_append, if_pos (by omega), bitAt_slice _ _ _ _ (by omega) (by omega)]
  have h1 : bitAt (slice g 0 1 ++ slice g 5 1) 1 = bitAt g 5 := by
    rw [bitAt_append, if_neg (by omega), bitAt_slice _ _ _ _ (by omega) (by omega)]
  rw [sboxRow, bitsToUnsigned, toNat_eq_sum_bitAt]
  simp only [Finset.sum_range_succ, Finset.sum_range_zero, h0, h1]
  omega

/-- The column is the middle four bits of the group (R144). -/
theorem sboxCol_eq (g : BitVec 6) :
    sboxCol g = 8 * (bitAt g 1).toNat + 4 * (bitAt g 2).toNat + 2 * (bitAt g 3).toNat + (bitAt g 4).toNat := by
  have hbit (i : Nat) (hi : i < 4) : bitAt (slice g 1 4) i = bitAt g (1 + i) := bitAt_slice _ _ _ _ hi (by omega)
  rw [sboxCol, bitsToUnsigned, toNat_eq_sum_bitAt]
  simp only [Finset.sum_range_succ, Finset.sum_range_zero, hbit 0 (by omega), hbit 1 (by omega), hbit 2 (by omega),
    hbit 3 (by omega), Nat.reduceAdd]
  omega

/-- Position `j` of group `i` is position `6*i+j` of the sum (R143). -/
theorem bitAt_group (x : BitVec 48) (i : Fin 8) {j : Nat} (hj : j < 6) :
    bitAt (group x i.val) j = bitAt x (6 * i.val + j) :=
  bitAt_slice _ _ _ _ hj (by omega)

/-- Lane `i` stands at positions `4*i` to `4*i+3` of the bank's output (R147). -/
theorem slice_sboxBank (T : Tables) (x : BitVec 48) (i : Fin 8) :
    slice (sboxBank T x) (4 * i.val) 4 = sboxLane T.s[i] (group x i.val) := by
  refine eq_of_bitAt_eq fun j hj => ?_
  rw [bitAt_slice _ _ _ _ hj (by omega)]
  simp only [sboxBank, bitAt_append]
  fin_cases i <;> simp (disch := omega) only [if_pos, if_neg] <;> congr 1 <;> omega

/-- Settles O11: the lane's index is its group's row and column, written out in bits. -/
theorem sboxLaneLooksUpItsGroup : Obligations.SboxLaneLooksUpItsGroup := by
  intro T x i
  have hbit (j : Nat) (hj : j < 6) := bitAt_group x i hj
  refine ⟨⟨sboxRow (group x i.val) * 16 + sboxCol (group x i.val), sboxIndex_lt _⟩, ?_, ?_⟩
  · simp only [sboxRow_eq, sboxCol_eq, hbit 0 (by omega), hbit 1 (by omega), hbit 2 (by omega), hbit 3 (by omega),
      hbit 4 (by omega), hbit 5 (by omega), Nat.add_zero]
  · rw [slice_sboxBank]
    exact unsignedToBits_of_lt (sboxValue_lt T.s[i] (group x i.val))

end Sys2Proof.Machine
end

section
/-! PROOFS. Encodings (30_encoding.md R73, R78, R83): the encoder and the decoder, source by source. -/

namespace Sys2Proof.Machine

/-- The words of the command port and of the phase register. -/
theorem three_bit_words (w : BitVec 3) :
    w = 0b000#3 ∨ w = 0b001#3 ∨ w = 0b010#3 ∨ w = 0b011#3 ∨ w = 0b100#3 ∨ w = 0b101#3 ∨ w = 0b110#3 ∨ w = 0b111#3 := by
  revert w
  decide

/-- A command word is the encoding of the command it decodes to (R73). -/
theorem encode_decodeCommand (cmd : BitVec 3) (key data : Bytes) :
    encode (decodeCommand cmd key data) = .command cmd key data := by
  rcases three_bit_words cmd with rfl | rfl | rfl | rfl | rfl | rfl | rfl | rfl <;> rfl

/-- A read select is the encoding of the read it decodes to (R78). -/
theorem encode_decodeRead (rsel : BitVec 5) : encode (decodeRead rsel) = .read rsel := by
  revert rsel
  decide

/-- A phase word that selects a step is the encoding of that step (R83). -/
theorem encode_of_decodePhase {ph : BitVec 3} {i : Instr} (h : decodePhase ph = .ok i) : encode i = .phase ph := by
  rcases three_bit_words ph with rfl | rfl | rfl | rfl | rfl | rfl | rfl | rfl <;> cases h <;> rfl

/-- The select of `RDRK k` is `0kkkk`. -/
theorem decode_encode_rdrk (k : Fin 16) : decode (encode (.rdrk k)) = .ok (.rdrk k) := by
  revert k
  decide

/-- Settles O57: constructor by constructor one way, word by word of each source the other way. -/
theorem decodeAndEncodeAgree : Obligations.DecodeAndEncodeAgree := by
  refine ⟨fun i hwf => ?_, fun w i h => ?_⟩
  · clear hwf
    cases i
    case rdrk k => exact decode_encode_rdrk k
    all_goals rfl
  · cases w with
    | command cmd key data => cases h; exact encode_decodeCommand cmd key data
    | read rsel => cases h; exact encode_decodeRead rsel
    | phase ph => exact encode_of_decodePhase h

/-- Settles O58: each word is its row of the tables. -/
theorem wordsFromTheTables : Obligations.WordsFromTheTables :=
  fun _ _ => ⟨rfl, rfl, rfl, rfl, rfl, rfl, rfl, rfl⟩

end Sys2Proof.Machine
end

section
/-! PROOFS. The reads (30_encoding.md R78 to R82, 20_memory.md R58): one function of the registers gives what each of
them returns. -/

namespace Sys2Proof.Machine

/-- What a read returns to the host, decided by the registers alone; `none` where it is not accepted. -/
def Engine.returned (e : Engine) : Instr → Option ReadAnswer
  | .rdrk k => if e.PH = .idle then some (if e.KV then .roundKey e.RK[k] else .noValue) else none
  | .rdout => if e.PH = .idle then some (if e.DV then .result (bitsToBytes e.DOUT) else .noValue) else none
  | .rdstat => some (.status e.status)
  | _ => some .noValue

/-- A read accepted in phase `IDLE` only hands the host its answer there and nothing elsewhere. -/
theorem readWhenIdle_eq (a : Engine → ReadAnswer) (s : State) :
    readWhenIdle a s =
      .next { s with answers := (if s.eng.PH = .idle then some (a s.eng) else none).toList ++ s.answers } := by
  by_cases hidle : s.eng.PH = .idle
  · rw [readWhenIdle_of_idle hidle, if_pos hidle]
    rfl
  · rw [readWhenIdle, if_neg hidle, if_neg hidle]
    rfl

/-- Every read hands the host what `Engine.returned` says and does nothing else. -/
theorem exec_of_encode_read {i : Instr} {rsel : BitVec 5} (h : encode i = .read rsel) (s : State) :
    exec i s = .next { s with answers := (s.eng.returned i).toList ++ s.answers } := by
  cases i
  case nop | reserved001 | cryptf | cryptr | keygen | reserved101 | encrypt | decrypt => cases h
  case ksStep | ldStep | rndStep | finStep => cases h
  case rdrk k => exact readWhenIdle_eq (fun e => if e.KV then .roundKey e.RK[k] else .noValue) s
  case rdout => exact readWhenIdle_eq (fun e => if e.DV then .result (bitsToBytes e.DOUT) else .noValue) s
  all_goals rfl

/-- The read of a select hands the host what `Engine.returned` says of it. -/
theorem exec_decodeRead_eq (rsel : BitVec 5) (s : State) :
    exec (decodeRead rsel) s = .next { s with answers := (s.eng.returned (decodeRead rsel)).toList ++ s.answers } :=
  exec_of_encode_read (encode_decodeRead rsel) s

/-- Settles O30: in phase `IDLE` the read is answered, and `KV` selects its answer. -/
theorem rdrkReturnsRoundKey : Obligations.RdrkReturnsRoundKey := by
  intro k s hidle
  have hread : exec (.rdrk k) s = .next (s.answer (if s.eng.KV then .roundKey s.eng.RK[k] else .noValue)) :=
    readWhenIdle_of_idle hidle fun e => if e.KV then .roundKey e.RK[k] else .noValue
  constructor
  · intro hvalid
    rw [hread, if_pos hvalid]
    rfl
  · intro hinvalid
    rw [hread, if_neg (by simp [hinvalid])]
    rfl

/-- Settles O33: each of the fourteen is the one reserved read. -/
theorem reservedReadsReturnNothing : Obligations.ReservedReadsReturnNothing := by
  intro i s hi
  simp only [List.mem_cons, List.not_mem_nil, or_false] at hi
  rcases hi with rfl | rfl | rfl | rfl | rfl | rfl | rfl | rfl | rfl | rfl | rfl | rfl | rfl | rfl <;> rfl

/-- Settles O34: the answer is a function of the registers. -/
theorem readsHaveNoSideEffect : Obligations.ReadsHaveNoSideEffect := by
  intro rsel e
  refine ⟨e.returned (decodeRead rsel), fun s hs => ?_⟩
  rw [exec_decodeRead_eq, hs]

end Sys2Proof.Machine
end

section
/-! PROOFS. The step by what heads the port (30_encoding.md R72, R78, R83): the host's operation where the engine
accepts it now, else the sequencer's. -/

namespace Sys2Proof.Machine

/-- What the sequencer's turn does: the step of the phase, nothing in `IDLE` (R83). -/
def sequencerExec (s : State) : StepOutcome :=
  match s.eng.PH with
  | .idle => .next s
  | .ks => execKsStep s
  | .ld => execLdStep s
  | .rnd => execRndStep s
  | .fin => execFinStep s

/-! ### Which turn comes next -/

/-- A busy engine's turn runs the word of its phase. -/
theorem sequencerTurn_of_busy {s : State} (hbusy : s.eng.PH ≠ .idle) :
    sequencerTurn s = .run (.phase s.eng.PH.code) s :=
  if_neg hbusy

/-- A host that waits for `IDLE` leaves a busy engine its turn. -/
theorem nextTurn_of_waiting {s : State} (hwait : waitsForIdle s.port = true) (hbusy : s.eng.PH ≠ .idle) :
    nextTurn s = sequencerTurn s := by
  have hb : s.eng.busy = true := Engine.busy_eq_true.mpr hbusy
  unfold nextTurn
  cases hport : s.port with
  | nil => rfl
  | cons op rest =>
    rw [hport] at hwait
    cases op with
    | command cmd key data => simp only [hb, if_true]
    | untilIdle => simp only [hb, if_true]
    | read rsel =>
      have hrsel : ¬16 < rsel.toNat := not_lt.mpr (of_decide_eq_true hwait)
      simp [readAccepted, hrsel, hb]
    | reset => cases hwait
    | pass => cases hwait

/-- A command at the head of the port of an idle engine runs. -/
theorem nextTurn_of_command {s : State} {cmd : BitVec 3} {key data : Bytes} {rest : List HostOp}
    (hport : s.port = .command cmd key data :: rest) (hidle : s.eng.PH = .idle) :
    nextTurn s = .run (.command cmd key data) { s with port := rest } := by
  simp [nextTurn, hport, Engine.busy, hidle]

/-- A read at the head of the port runs when the engine accepts it. -/
theorem nextTurn_of_read {s : State} {rsel : BitVec 5} {rest : List HostOp} (hport : s.port = .read rsel :: rest)
    (haccepted : readAccepted rsel s.eng = true) : nextTurn s = .run (.read rsel) { s with port := rest } := by
  simp [nextTurn, hport, haccepted]

/-- An idle engine accepts every read. -/
theorem readAccepted_of_idle {e : Engine} (hidle : e.PH = .idle) (rsel : BitVec 5) : readAccepted rsel e = true := by
  simp [readAccepted, Engine.busy, hidle]

/-! ### The step -/

/-- A turn that runs a word executes the instruction it decodes to. -/
theorem step_of_run {s s' : State} {w : PortWord} {i : Instr} (hturn : nextTurn s = .run w s')
    (hdecode : decode w = .ok i) : step s = exec i s' := by
  simp only [step, hturn, hdecode]

/-- The sequencer's turn as a step. -/
theorem step_of_sequencerTurn {s s' : State} (hturn : nextTurn s = sequencerTurn s') : step s = sequencerExec s' := by
  unfold step
  rw [hturn, sequencerTurn, sequencerExec]
  cases hph : s'.eng.PH <;> rfl

/-- With nothing presented the sequencer moves. -/
theorem step_of_nil {s : State} (hport : s.port = []) : step s = sequencerExec s :=
  step_of_sequencerTurn (by simp only [nextTurn, hport])

/-- A host that lets a turn pass leaves it to the sequencer. -/
theorem step_of_pass {s : State} {rest : List HostOp} (hport : s.port = .pass :: rest) :
    step s = sequencerExec { s with port := rest } :=
  step_of_sequencerTurn (by simp only [nextTurn, hport])

/-- A host that waits for `IDLE` leaves a busy engine to its sequencer. -/
theorem step_of_waiting {s : State} (hwait : waitsForIdle s.port = true) (hbusy : s.eng.PH ≠ .idle) :
    step s = sequencerExec s :=
  step_of_sequencerTurn (nextTurn_of_waiting hwait hbusy)

/-- The host's wait ends when the engine is idle. -/
theorem step_of_untilIdle {s : State} {rest : List HostOp} (hport : s.port = .untilIdle :: rest)
    (hidle : s.eng.PH = .idle) : step s = .next { s with port := rest } := by
  have hturn : nextTurn s = .quiet { s with port := rest } := by simp [nextTurn, hport, Engine.busy, hidle]
  simp only [step, hturn]

/-- An accepted read is answered. -/
theorem step_of_read {s : State} {rsel : BitVec 5} {rest : List HostOp} (hport : s.port = .read rsel :: rest)
    (haccepted : readAccepted rsel s.eng = true) :
    step s = .next { s with
      port := rest, answers := (s.eng.returned (decodeRead rsel)).toList ++ s.answers } := by
  rw [step_of_run (nextTurn_of_read hport haccepted) rfl, exec_decodeRead_eq]

/-- An idle engine with nothing presented stays as it is. -/
theorem step_of_quiet {s : State} (hport : s.port = []) (hidle : s.eng.PH = .idle) : step s = .next s := by
  rw [step_of_nil hport, sequencerExec, hidle]

/-! ### The step as an action on the state -/

/-- What the step does, and what the host has left to do then: the operation at the head of the port if the engine does
not hold it, else `pass`, the sequencer's own turn. -/
def nextAction (busy : Bool) : List HostOp → HostOp × List HostOp
  | [] => (.pass, [])
  | op :: rest => if waitsForIdle (op :: rest) && busy then (.pass, op :: rest) else (op, rest)

/-- An action on the state; `pass` is the sequencer's turn, and waiting is over when it is an action. -/
def State.perform (op : HostOp) (s : State) : StepOutcome :=
  match op with
  | .command cmd key data => .next { s with eng := s.eng.accept tables cmd key data }
  | .read rsel => .next { s with answers := (s.eng.returned (decodeRead rsel)).toList ++ s.answers }
  | .reset => .next s.applyReset
  | .untilIdle => .next s
  | .pass => sequencerExec s

/-- A step is the action its port and its phase select. -/
theorem step_eq_perform (s : State) :
    step s = { s with port := (nextAction s.eng.busy s.port).2 }.perform (nextAction s.eng.busy s.port).1 := by
  cases hport : s.port with
  | nil =>
    rw [step_of_nil hport]
    simp only [nextAction, ← hport]
    rfl
  | cons op rest =>
    by_cases hheld : (waitsForIdle (op :: rest) && s.eng.busy) = true
    · simp only [nextAction, hheld, if_true]
      obtain ⟨hwait, hbusy⟩ := Bool.and_eq_true_iff.mp hheld
      rw [step_of_waiting (hport ▸ hwait) (Engine.busy_eq_true.mp hbusy), ← hport]
      rfl
    · simp only [nextAction, hheld]
      have hidle (hwait : waitsForIdle (op :: rest) = true) : s.eng.PH = .idle := by
        simpa [hwait, Engine.busy] using hheld
      cases op with
      | command cmd key data => exact step_of_command hport (hidle rfl)
      | untilIdle => exact step_of_untilIdle hport (hidle rfl)
      | reset => exact step_of_reset hport
      | pass => exact step_of_pass hport
      | read rsel =>
        refine step_of_read hport ?_
        by_cases hselect : rsel.toNat ≤ 16
        · exact readAccepted_of_idle (hidle (decide_eq_true hselect)) rsel
        · simp [readAccepted, not_le.mp hselect]

/-- Settles O40: the turn is decided by the head of the port and by the phase. -/
theorem stepRunsDecodedInstruction : Obligations.StepRunsDecodedInstruction := by
  refine ⟨fun s s' w i => step_of_run, fun s cmd key data rest => nextTurn_of_command, fun s rsel rest hport h => ?_,
    fun s hwait hbusy => (nextTurn_of_waiting hwait hbusy).trans (sequencerTurn_of_busy hbusy)⟩
  refine nextTurn_of_read hport ?_
  obtain hidle | hselect := h
  · exact readAccepted_of_idle hidle rsel
  · have : 16 < rsel.toNat := hselect
    simp [readAccepted, this]

/-- Settles O36: the reset event is the step, and what it leaves of the control registers is fixed. -/
theorem resetEventInAnyPhase : Obligations.ResetEventInAnyPhase := fun _ _ hport =>
  ⟨_, step_of_reset hport, rfl, rfl, rfl, rfl, rfl, rfl, rfl, rfl, rfl, rfl, rfl, rfl, rfl⟩

/-! ### The sequencer's steps and their preconditions -/

/-- No round is left exactly when sixteen are done. -/
theorem roundIndex_eq_none {n : Fin 17} : roundIndex n = none ↔ ¬n.val ≤ 15 := by
  unfold roundIndex
  split <;> simp <;> omega

/-- A step that performs a round is refused exactly outside its phase or with no round left. -/
theorem sequencerRound_eq_refused (ph : Phase) (f : Fin 16 → Engine → Engine) (s : State) :
    sequencerRound ph f s = .refused .stepNotEnabled ↔ ¬(s.eng.PH = ph ∧ s.eng.N.val ≤ 15) := by
  rw [not_and', ← roundIndex_eq_none.not_left, sequencerRound]
  by_cases hph : s.eng.PH = ph
  · cases roundIndex s.eng.N <;> simp [hph]
  · simp [hph]

/-- Settles O20: each step's meaning asks for its precondition first. -/
theorem sequencerStepsStopOutsidePrecondition : Obligations.SequencerStepsStopOutsidePrecondition := by
  intro s
  refine ⟨sequencerRound_eq_refused .ks _ s, ?_, sequencerRound_eq_refused .rnd _ s, ?_⟩
  · by_cases h : s.eng.PH = .ld <;> simp [exec, execLdStep, h]
  · by_cases h : s.eng.PH = .fin ∧ s.eng.N = 16 <;> simp [exec, execFinStep, h]

/-- The sequencer's turn under a step's precondition. -/
theorem sequencerExec_of_step {s : State} {e' : Engine} (h : SequencerStep tables s.eng e') :
    sequencerExec s = .next { s with eng := e' } := by
  cases h with
  | ks i hph hround =>
    rw [sequencerExec, hph]
    exact sequencerRound_of_enabled hph hround _
  | ld hph =>
    rw [sequencerExec, hph]
    exact if_pos hph
  | rnd i hph hround =>
    rw [sequencerExec, hph]
    exact sequencerRound_of_enabled hph hround _
  | fin hph hround =>
    rw [sequencerExec, hph]
    exact if_pos ⟨hph, hround⟩

/-- What the sequencer's turn does when it answers a next state. -/
theorem sequencerExec_next {s t : State} (h : sequencerExec s = .next t) :
    (s.eng.PH = .idle ∧ t = s) ∨ ∃ e', SequencerStep tables s.eng e' ∧ t = { s with eng := e' } := by
  unfold sequencerExec at h
  cases hph : s.eng.PH <;> rw [hph] at h
  case idle => cases h; exact .inl ⟨rfl, rfl⟩
  case ks => exact .inr (exec_phase_next (i := .ksStep) (by rw [hph]; rfl) h)
  case ld => exact .inr (exec_phase_next (i := .ldStep) (by rw [hph]; rfl) h)
  case rnd => exact .inr (exec_phase_next (i := .rndStep) (by rw [hph]; rfl) h)
  case fin => exact .inr (exec_phase_next (i := .finStep) (by rw [hph]; rfl) h)

/-- Settles O29: while busy every meaning that needs `IDLE` answers the state it was given, and a waiting host leaves
the turn to the sequencer, whose step writes the engine only. -/
theorem busyEngineHoldsHost : Obligations.BusyEngineHoldsHost := by
  intro s hbusy
  refine ⟨fun cmd key data => ?_, fun k => if_neg hbusy, if_neg hbusy, fun hwait => ⟨fun i hi => ?_, fun t ht => ?_⟩⟩
  · rw [exec_decodeCommand]
    exact if_neg hbusy
  · exact step_of_run ((nextTurn_of_waiting hwait hbusy).trans (sequencerTurn_of_busy hbusy)) hi
  · rw [step_of_waiting hwait hbusy] at ht
    obtain ⟨-, rfl⟩ | ⟨e', -, rfl⟩ := sequencerExec_next ht <;> exact ⟨rfl, rfl⟩

end Sys2Proof.Machine
end

section
/-! PROOFS. Commands that start something, accepted in phase `IDLE` (30_encoding.md R72), and the operands a command
does not use. -/

namespace Sys2Proof.Machine

/-! ### The operands -/

/-- An operand that passes its check has bits exactly if it is used. -/
theorem isSome_of_operandBits {used : Bool} {b : Bytes} {o : Option Block} (h : operandBits used b = some o) :
    o.isSome = used := by
  cases used with
  | false => cases h; rfl
  | true =>
    obtain ⟨v, -, rfl⟩ := Option.map_eq_some_iff.mp h
    rfl

/-- A used operand of 8 bytes passes with its bit form. -/
theorem operandBits_of_bytesToBits {b : Bytes} {v : Block} (h : bytesToBits b = some v) :
    operandBits true b = some (some v) := by
  simp [operandBits, h]

/-- A command other than the reserved ones sees its operands through their checks only. -/
theorem accept_congr {cmd : BitVec 3} {key key' data data' : Bytes} (T : Tables) (e : Engine)
    (hkey : operandBits (cmdKS cmd) key = operandBits (cmdKS cmd) key')
    (hdata : operandBits (cmdDR cmd) data = operandBits (cmdDR cmd) data') :
    e.accept T cmd key data = e.accept T cmd key' data' := by
  rw [Engine.accept, hkey, hdata, Engine.accept]

/-- Settles O28: the check of an unused operand does not look at it, and the reserved encoding with `KS = 1` is refused
before any check. -/
theorem unusedOperandsAreIgnored : Obligations.UnusedOperandsAreIgnored := by
  intro cmd key key' data data' s hkey hdata
  have haccept : s.eng.accept tables cmd key data = s.eng.accept tables cmd key' data' := by
    by_cases hreserved : cmd = 0b101#3
    · rw [accept_reserved (.inr hreserved), accept_reserved (.inr hreserved)]
    · refine accept_congr tables s.eng ?_ ?_
      · cases hks : cmdKS cmd with
        | false => rfl
        | true => rw [hkey ⟨hks, hreserved⟩]
      · cases hdr : cmdDR cmd with
        | false => rfl
        | true => rw [hdata hdr]
  simp only [exec_decodeCommand, acceptCommand, haccept]

/-! ### The starts -/

section

variable {key data : Bytes} {k b : Block} (T : Tables)

/-- The accept of `ENCRYPT` (`DECRYPT`) with 8-byte operands is the start of key schedule and driver (R166, R167). -/
theorem accept_crypt_with_key (hkey : bytesToBits key = some k) (hdata : bytesToBits data = some b) (rev : Bool)
    (e : Engine) :
    e.accept T (if rev then 0b111#3 else 0b110#3) key data = e.start T true true rev (some k) (some b) := by
  cases rev <;> simp [Engine.accept, cmdKS, cmdDR, cmdREV, operandBits_of_bytesToBits hkey,
    operandBits_of_bytesToBits hdata]

/-- The accept of `CRYPTF` (`CRYPTR`) with valid keys and 8-byte data is the start of the driver (R168). -/
theorem accept_crypt_stored (hdata : bytesToBits data = some b) (rev : Bool) {e : Engine} (hvalid : e.KV = true) :
    e.accept T (if rev then 0b011#3 else 0b010#3) key data = e.start T false true rev none (some b) := by
  cases rev <;> simp [Engine.accept, cmdKS, cmdDR, cmdREV, operandBits_of_bytesToBits hdata, hvalid]

/-- The accept of `CRYPTF` (`CRYPTR`) without valid keys is refused (60_exceptions.md R196). -/
theorem accept_crypt_stored_invalid (hdata : data.length = 8) (rev : Bool) {e : Engine} (hinvalid : e.KV = false) :
    e.accept T (if rev then 0b011#3 else 0b010#3) key data = e.fail .keysNotValid false := by
  obtain ⟨b, hb⟩ := exists_bytesToBits hdata
  cases rev <;> simp [Engine.accept, cmdKS, cmdDR, operandBits_of_bytesToBits hb, hinvalid]

end

/-- Settles O23: the accept is the start with a key operand and no data operand. -/
theorem keygenStarts : Obligations.KeygenStarts := by
  intro key data k s hidle hkey
  calc exec (.keygen key data) s
    _ = .next { s with eng := s.eng.accept tables 0b100#3 key data } := acceptCommand_of_idle hidle _ _ _
    _ = .next { s with eng := s.eng.start tables true false false (some k) none } := by rw [accept_keygen hkey]

/-- Settles O24: the accept is the start with both operands. -/
theorem encryptAndDecryptStart : Obligations.EncryptAndDecryptStart := by
  intro key data k b s hidle hkey hdata started
  have hstart (rev : Bool) : acceptCommand (if rev then 0b111#3 else 0b110#3) key data s = .next (started rev) := by
    rw [acceptCommand_of_idle hidle, accept_crypt_with_key tables hkey hdata]
    rfl
  exact ⟨hstart false, hstart true⟩

/-- Settles O25: the accept is the start with a data operand and no key operand. -/
theorem cryptfAndCryptrStart : Obligations.CryptfAndCryptrStart := by
  intro key data b s hidle hvalid hdata started
  have hstart (rev : Bool) : acceptCommand (if rev then 0b011#3 else 0b010#3) key data s = .next (started rev) := by
    rw [acceptCommand_of_idle hidle, accept_crypt_stored tables hdata rev hvalid]
    rfl
  exact ⟨hstart false, hstart true⟩

/-- Settles O35: `PH` and the two valid flags are reset, and they guard every read and both commands. -/
theorem afterResetNothingIsReadable : Obligations.AfterResetNothingIsReadable := by
  refine ⟨⟨0, 0, Vector.replicate 16 0, 0, 0, 0, 0, rfl⟩, fun c d rk l r din dout s hs => ?_⟩
  have hidle : s.eng.PH = .idle := by rw [hs]; rfl
  have hkeys : s.eng.KV = false := by rw [hs]; rfl
  refine ⟨hidle, by rw [hs]; rfl, by rw [hs]; rfl, by rw [hs]; rfl, by rw [hs]; rfl, hkeys, by rw [hs]; rfl,
    by rw [hs]; rfl, by rw [hs]; rfl, by rw [hs]; rfl, by rw [hs]; rfl, ?_, ?_, fun k => ?_, fun key data hdata => ?_⟩
  · have hstatus : s.eng.status = 0 := by
      rw [hs]
      simp [Engine.status, Engine.busy, Engine.afterReset, ErrorCode.code]
    rw [← hstatus]
    rfl
  · have hresult : s.eng.DV = false := by rw [hs]; rfl
    exact (rdoutReturnsResult s hidle).2 hresult
  · exact (rdrkReturnsRoundKey k s hidle).2 hkeys
  · have hrefused (rev : Bool) : acceptCommand (if rev then 0b011#3 else 0b010#3) key data s =
        .next { s with eng := s.eng.fail .keysNotValid false } := by
      rw [acceptCommand_of_idle hidle, accept_crypt_stored_invalid tables hdata rev hkeys]
    exact ⟨hrefused false, hrefused true⟩

end Sys2Proof.Machine
end

section
/-! PROOFS. Who writes a register (10_state.md sections 2 to 4): outside the reset event the engine changes by an accept
or by a sequencer step only, and each of these writes what its rule says. -/

namespace Sys2Proof.Machine

/-- Outside the reset event a step leaves the engine as it is, accepts a command, or is a sequencer step. -/
theorem step_eng_cases {s t : State} (h : step s = .next t) (hreset : ∀ rest, s.port ≠ .reset :: rest) :
    t.eng = s.eng ∨
    (∃ cmd key data rest, s.port = .command cmd key data :: rest ∧ s.eng.PH = .idle ∧
      t.eng = s.eng.accept tables cmd key data) ∨
    SequencerStep tables s.eng t.eng := by
  obtain ⟨rest, hport, -⟩ | ⟨cmd, key, data, rest, hport, hidle, rfl⟩ | ⟨_, _, _, -, -, -, rfl⟩ | ⟨_, -, -, rfl⟩ |
    ⟨_, _, -, hseq, rfl⟩ := step_cases h
  case inl => exact absurd hport (hreset rest)
  case inr.inl => exact .inr (.inl ⟨cmd, key, data, rest, hport, hidle, rfl⟩)
  case inr.inr.inl => exact .inl rfl
  case inr.inr.inr.inl => exact .inl rfl
  case inr.inr.inr.inr => exact .inr (.inr hseq)

/-! ### What the accept step writes -/

section

variable (T : Tables) (cmd : BitVec 3) (key data : Bytes) (e : Engine)

/-- The accept step writes neither the round-key store nor the result. -/
theorem accept_RK_DOUT : (e.accept T cmd key data).RK = e.RK ∧ (e.accept T cmd key data).DOUT = e.DOUT := by
  obtain ⟨-, heq⟩ | ⟨code, eop, -, -, heq⟩ | ⟨k, b, -, -, -, -, heq⟩ := accept_cases T cmd key data e
  · rw [heq]; exact ⟨rfl, rfl⟩
  · rw [heq]; exact ⟨rfl, rfl⟩
  · rw [heq]; cases k <;> simp

/-- The accept step keeps `KV`, or clears it for a command with `KS = 1` that enters phase `KS`. -/
theorem accept_KV : (e.accept T cmd key data).KV = e.KV ∨
    ((e.accept T cmd key data).KV = false ∧ (e.accept T cmd key data).PH = .ks ∧ cmdKS cmd = true) := by
  obtain ⟨-, heq⟩ | ⟨code, eop, -, -, heq⟩ | ⟨k, b, hk, -, -, -, heq⟩ := accept_cases T cmd key data e
  · exact .inl (by rw [heq])
  · exact .inl (by rw [heq]; rfl)
  · rw [heq]
    cases k with
    | none => exact .inl (by simp)
    | some k => exact .inr ⟨by simp, by simp, (isSome_of_operandBits hk).symm⟩

/-- The accept step keeps `DV`, or clears it for a command with `DR = 1` that starts without an error. -/
theorem accept_DV : (e.accept T cmd key data).DV = e.DV ∨
    ((e.accept T cmd key data).DV = false ∧ (e.accept T cmd key data).PH ≠ .idle ∧
      (e.accept T cmd key data).ERR = false ∧ cmdDR cmd = true) := by
  obtain ⟨-, heq⟩ | ⟨code, eop, -, -, heq⟩ | ⟨k, b, -, hb, -, -, heq⟩ := accept_cases T cmd key data e
  · exact .inl (by rw [heq])
  · exact .inl (by rw [heq]; rfl)
  · rw [heq]
    cases b with
    | none => exact .inl (by cases k <;> simp)
    | some b =>
      obtain ⟨herr, -⟩ := e.start_error_fields T (cmdKS cmd) (cmdDR cmd) (cmdREV cmd) k (some b)
      exact .inr ⟨by cases k <;> simp, by cases k <;> simp, herr, (isSome_of_operandBits hb).symm⟩

/-- The accept step stays in its phase or enters phase `KS` or `LD`. -/
theorem accept_PH : (e.accept T cmd key data).PH = e.PH ∨ (e.accept T cmd key data).PH = .ks ∨
    (e.accept T cmd key data).PH = .ld := by
  obtain ⟨-, heq⟩ | ⟨code, eop, -, -, heq⟩ | ⟨k, b, -, -, -, -, heq⟩ := accept_cases T cmd key data e
  · exact .inl (by rw [heq])
  · exact .inl (by rw [heq]; rfl)
  · rw [heq]
    cases k with
    | none => exact .inr (.inr (by simp))
    | some k => exact .inr (.inl (by simp))

/-- With 8-byte operands the accept step records no length error (30_encoding.md R70). -/
theorem accept_ECODE_of_lengths (hkey : key.length = 8) (hdata : data.length = 8)
    (h : e.ECODE ≠ .invalidInputLength) : (e.accept T cmd key data).ECODE ≠ .invalidInputLength := by
  by_cases hnop : cmd = 0b000#3
  · rwa [hnop, accept_nop]
  by_cases hill : cmd = 0b001#3 ∨ cmd = 0b101#3
  · rw [accept_reserved hill, Engine.fail_ECODE]
    decide
  obtain ⟨k, hk, -⟩ := exists_operandBits_of_not_bad (used := cmdKS cmd) fun hbad => hbad.2 hkey
  obtain ⟨b, hb, -⟩ := exists_operandBits_of_not_bad (used := cmdDR cmd) fun hbad => hbad.2 hdata
  rw [accept_of_good_operands T hnop hill hk hb]
  split
  · rw [Engine.fail_ECODE]
    decide
  · obtain ⟨-, hcode, -⟩ := e.start_error_fields T (cmdKS cmd) (cmdDR cmd) (cmdREV cmd) k b
    rw [hcode]
    decide

end

/-! ### What a sequencer step writes -/

section

variable {T : Tables} {e e' : Engine} (h : SequencerStep T e e')
include h

/-- A sequencer step leaves the store as it is, or is a KS step that writes the entry of its round. -/
theorem SequencerStep.RK_eq_or_set :
    e'.RK = e.RK ∨ (e.PH = .ks ∧ ∃ (i : Fin 16) (v : RoundKey), e.N = i.castSucc ∧ e'.RK = e.RK.set i.val v) := by
  cases h with
  | ks i hph hround => exact .inr ⟨hph, i, _, hround, Engine.ksRound_RK T i e⟩
  | ld => exact .inl rfl
  | rnd i => exact .inl (Engine.rndRound_RK T i e)
  | fin => exact .inl rfl

/-- A sequencer step keeps `KV`, or is the last KS step, which sets it. -/
theorem SequencerStep.KV_eq_or_set : e'.KV = e.KV ∨ (e'.KV = true ∧ e.PH = .ks ∧ e.N.val = 15) := by
  cases h with
  | ks i hph hround =>
    rw [Engine.ksRound_KV]
    split
    case isTrue hlast => exact .inr ⟨rfl, hph, by rw [hround, Fin.val_castSucc]; omega⟩
    case isFalse => exact .inl rfl
  | ld => exact .inl rfl
  | rnd i => exact .inl (Engine.rndRound_KV T i e)
  | fin => exact .inl rfl

/-- A sequencer step keeps `DV` and `DOUT`, or is the FIN step. -/
theorem SequencerStep.result_eq_or_fin : (e'.DV = e.DV ∧ e'.DOUT = e.DOUT) ∨ (e.PH = .fin ∧ e'.DV = true) := by
  cases h with
  | ks i => exact .inl ⟨Engine.ksRound_DV T i e, Engine.ksRound_DOUT T i e⟩
  | ld => exact .inl ⟨rfl, rfl⟩
  | rnd i => exact .inl ⟨Engine.rndRound_DV T i e, Engine.rndRound_DOUT T i e⟩
  | fin hph => exact .inr ⟨hph, rfl⟩

/-- No sequencer step touches `ECODE`. -/
theorem SequencerStep.ECODE_eq : e'.ECODE = e.ECODE := by
  cases h <;> simp

/-- The phase a sequencer step leads to: `KS` and `RND` are left by their sixteenth round only. -/
theorem SequencerStep.PH_eq :
    (e.PH = .ks ∧ e'.PH = if e.N.val = 15 then (if e.DRF then .ld else .idle) else .ks) ∨
    (e.PH = .ld ∧ e'.PH = .rnd) ∨
    (e.PH = .rnd ∧ e'.PH = if e.N.val = 15 then .fin else .rnd) ∨
    (e.PH = .fin ∧ e'.PH = .idle) := by
  cases h with
  | ks i hph hround => exact .inl ⟨hph, by simp [hround, hph]⟩
  | ld hph => exact .inr (.inl ⟨hph, rfl⟩)
  | rnd i hph hround => exact .inr (.inr (.inl ⟨hph, by simp [hround, hph]⟩))
  | fin hph => exact .inr (.inr (.inr ⟨hph, rfl⟩))

end

/-! ### The statements about every step -/

/-- Settles O41: the accept step does not write the store, and a sequencer step writes one entry, in phase `KS`. -/
theorem onlyKsStepWritesRoundKeys : Obligations.OnlyKsStepWritesRoundKeys := by
  intro s t h hreset
  obtain heq | ⟨cmd, key, data, -, -, -, heq⟩ | hseq := step_eng_cases h hreset
  · exact .inl (by rw [heq])
  · exact .inl (by rw [heq, (accept_RK_DOUT tables cmd key data s.eng).1])
  · exact hseq.RK_eq_or_set

/-- Settles O42: reset, the accept of a command with `KS = 1` and the last KS step are the writers of `KV`. -/
theorem keysValidWriters : Obligations.KeysValidWriters := by
  intro s t h hne
  by_cases hreset : ∃ rest, s.port = .reset :: rest
  · obtain ⟨rest, hport⟩ := hreset
    cases (step_of_reset hport).symm.trans h
    exact .inl ⟨rfl, rest, hport⟩
  obtain heq | ⟨cmd, key, data, rest, hport, hidle, heq⟩ | hseq :=
    step_eng_cases h fun rest hport => hreset ⟨rest, hport⟩
  · exact absurd (congrArg Engine.KV heq) hne
  · obtain hkeep | ⟨hclear, hph, hks⟩ := accept_KV tables cmd key data s.eng
    · exact absurd ((congrArg Engine.KV heq).trans hkeep) hne
    · exact .inr (.inl ⟨by rw [heq, hclear], hidle, by rw [heq, hph], cmd, key, data, rest, hport, hks⟩)
  · exact .inr (.inr (hseq.KV_eq_or_set.resolve_left hne))

/-- Settles O43: the accept of a command with `DR = 1` and the FIN step are the writers. -/
theorem dataValidWriters : Obligations.DataValidWriters := by
  intro s t h hreset
  obtain heq | ⟨cmd, key, data, rest, hport, hidle, heq⟩ | hseq := step_eng_cases h hreset
  · rw [heq]
    exact ⟨fun hne => absurd rfl hne, fun hne => absurd rfl hne⟩
  · rw [heq]
    refine ⟨fun hne => ?_, fun hne => absurd (accept_RK_DOUT tables cmd key data s.eng).2 hne⟩
    obtain ⟨hclear, hph, herr, hdr⟩ := (accept_DV tables cmd key data s.eng).resolve_left hne
    exact .inl ⟨hclear, hidle, hph, herr, cmd, key, data, rest, hport, hdr⟩
  · obtain ⟨hvalid, hresult⟩ | ⟨hph, hset⟩ := hseq.result_eq_or_fin
    · exact ⟨fun hne => absurd hvalid hne, fun hne => absurd hresult hne⟩
    · exact ⟨fun _ => .inr ⟨hset, hph⟩, fun _ => ⟨hph, hset⟩⟩

/-- Settles O45: the accept leaves phase `IDLE` for `KS` or `LD`, and a sequencer step goes where its round says. -/
theorem phaseTransitions : Obligations.PhaseTransitions := by
  intro s t h hreset
  obtain heq | ⟨cmd, key, data, -, -, hidle, heq⟩ | hseq := step_eng_cases h hreset
  · rw [heq]
    exact ⟨.inl rfl, fun hph hne => absurd hph hne, fun hph hne => absurd hph hne⟩
  · rw [heq, hidle]
    refine ⟨?_, nofun, nofun⟩
    obtain hph | hph | hph := accept_PH tables cmd key data s.eng
    · exact .inl (hph.trans hidle)
    · exact .inr (by rw [hph]; decide)
    · exact .inr (by rw [hph]; decide)
  · obtain ⟨hph, hnext⟩ | ⟨hph, hnext⟩ | ⟨hph, hnext⟩ | ⟨hph, hnext⟩ := hseq.PH_eq <;> rw [hph, hnext]
    · by_cases hlast : s.eng.N.val = 15
      · cases s.eng.DRF <;> simp [hlast, phaseMoves]
      · simp [hlast]
    · simp [phaseMoves]
    · by_cases hlast : s.eng.N.val = 15 <;> simp [hlast, phaseMoves]
    · simp [phaseMoves]

/-! ### Ports of fixed width -/

/-- On a fixed-width port a step records no length error, and the port stays one. -/
theorem step_fixedWidth {s t : State} (h : step s = .next t) (hport : s.port.all HostOp.fixedWidth = true)
    (hcode : s.eng.ECODE ≠ .invalidInputLength) :
    t.port.all HostOp.fixedWidth = true ∧ t.eng.ECODE ≠ .invalidInputLength := by
  obtain ⟨rest, hp, rfl⟩ | ⟨cmd, key, data, rest, hp, -, rfl⟩ | ⟨rsel, rest, a, hp, -, -, rfl⟩ | ⟨rest, hp, -, rfl⟩ |
    ⟨rest, e', hp, hseq, rfl⟩ := step_cases h
  case inl =>
    rw [hp, List.all_cons, Bool.and_eq_true] at hport
    exact ⟨hport.2, by simp⟩
  case inr.inl =>
    rw [hp, List.all_cons, Bool.and_eq_true] at hport
    obtain ⟨hwidth, hrest⟩ := hport
    simp only [HostOp.fixedWidth, Bool.and_eq_true, beq_iff_eq] at hwidth
    exact ⟨hrest, accept_ECODE_of_lengths tables cmd key data s.eng hwidth.1 hwidth.2 hcode⟩
  case inr.inr.inl =>
    rw [hp, List.all_cons, Bool.and_eq_true] at hport
    exact ⟨hport.2, hcode⟩
  case inr.inr.inr.inl =>
    refine ⟨?_, hcode⟩
    obtain hp | hp | hp := hp <;> rw [hp] at hport <;> exact hport
  case inr.inr.inr.inr =>
    refine ⟨?_, by rw [← hseq.ECODE_eq] at hcode; exact hcode⟩
    obtain hp | hp := hp <;> rw [hp] at hport <;> exact hport

/-- Settles O56: the accept step of 8-byte operands passes the length checks; by induction on the number of steps. -/
theorem fixedWidthPortsMakeNoLengthError : Obligations.FixedWidthPortsMakeNoLengthError := by
  intro s t k hport hcode h
  induction k generalizing s with
  | zero => cases h; exact hcode
  | succ k ih =>
    cases hstep : step s with
    | next s' =>
      rw [steps_succ hstep] at h
      obtain ⟨hport', hcode'⟩ := step_fixedWidth hstep hport hcode
      exact ih s' hport' hcode' h
    | fault r => simp [steps, hstep] at h
    | refused r => simp [steps, hstep] at h

end Sys2Proof.Machine
end

section
/-! PROOFS. The state invariant (10_state.md R45): it holds after reset, every operation keeps it, and under it no step
can stop. -/

namespace Sys2Proof.Machine

/-! ### The invariant, phase by phase -/

/-- In phase `IDLE` the invariant is about the error fields and the store only. -/
theorem Engine.consistent_of_idle {T : Tables} {e : Engine} (hidle : e.PH = .idle)
    (hcode : e.ERR = false → e.ECODE = .none ∧ e.EOP = false) (hoperand : e.ECODE ≠ .invalidInputLength → e.EOP = false)
    (hsticky : e.ERR = true → e.ERRS = true) (hvalid : e.KV = true → ∃ k : Block, e.RK = keySchedule T k) :
    e.Consistent T where
  roundsBelow16 h := by simp [hidle] at h
  finAfter16 h := by simp [hidle] at h
  driverPhases h := by simp [hidle] at h
  ksPhase h := by simp [hidle] at h
  noErrorNoCode := hcode
  operandOnlyForLength := hoperand
  errorIsSticky := hsticky
  busyWithoutError h := absurd hidle h
  partialSchedule h := by simp [hidle] at h
  driverPending h := by simp [hidle] at h
  validSchedule := hvalid
  driverProgress h := by simp [hidle] at h

/-- The error fields say that the last command was not refused. -/
def Engine.NoError (e : Engine) : Prop := e.ERR = false ∧ e.ECODE = .none ∧ e.EOP = false

section

variable {e : Engine} (h : e.NoError)
include h

theorem Engine.NoError.noErr : e.ERR = false := h.1
theorem Engine.NoError.noCode : e.ECODE = .none ∧ e.EOP = false := h.2
theorem Engine.NoError.noOperand : e.EOP = false := h.noCode.2

end

/-- A busy engine's command was not refused. -/
theorem Engine.Consistent.noError {T : Tables} {e : Engine} (h : e.Consistent T) (hbusy : e.PH ≠ .idle) : e.NoError :=
  ⟨h.busyWithoutError hbusy, h.noErrorNoCode (h.busyWithoutError hbusy)⟩

/-- In phase `KS` the invariant is that the schedule of one key is under way. -/
theorem Engine.consistent_of_ks {T : Tables} {e : Engine} (hph : e.PH = .ks) (hround : e.N.val ≤ 15)
    (hflags : e.KSF = true ∧ e.KV = false) (herror : e.NoError) (hpending : e.DRF = true → e.DV = false)
    (hschedule : ∃ k : Block, (e.C, e.D) = halvesAfter T k e.N ∧
      ∀ j : Fin 16, j.val < e.N.val → e.RK[j] = (keySchedule T k)[j]) : e.Consistent T where
  roundsBelow16 _ := hround
  finAfter16 h := by simp [hph] at h
  driverPhases h := by simp [hph] at h
  ksPhase _ := hflags
  noErrorNoCode _ := herror.noCode
  operandOnlyForLength _ := herror.noOperand
  errorIsSticky h := by simp [herror.noErr] at h
  busyWithoutError _ := herror.noErr
  partialSchedule _ := hschedule
  driverPending _ := hpending
  validSchedule h := by simp [hflags.2] at h
  driverProgress h := by simp [hph] at h

/-- In the driver's phases the invariant is that the store is valid and the rounds of one block are under way. -/
theorem Engine.consistent_of_driver {T : Tables} {e : Engine} (hph : e.PH = .ld ∨ e.PH = .rnd ∨ e.PH = .fin)
    (hflags : e.DRF = true ∧ e.KV = true ∧ e.DV = false) (herror : e.NoError)
    (hvalid : ∃ k : Block, e.RK = keySchedule T k) (hrnd : e.PH = .rnd → e.N.val ≤ 15) (hfin : e.PH = .fin → e.N = 16)
    (hprogress : e.PH = .rnd ∨ e.PH = .fin → (e.L, e.R) = roundsAfter T e.DIN e.RK e.REVF e.N) : e.Consistent T where
  roundsBelow16 h := hrnd (h.resolve_left fun hks => by simp [hks] at hph)
  finAfter16 := hfin
  driverPhases _ := hflags
  ksPhase h := by simp [h] at hph
  noErrorNoCode _ := herror.noCode
  operandOnlyForLength _ := herror.noOperand
  errorIsSticky h := by simp [herror.noErr] at h
  busyWithoutError _ := herror.noErr
  partialSchedule h := by simp [h] at hph
  driverPending h := by simp [h] at hph
  validSchedule _ := hvalid
  driverProgress := hprogress

/-! ### Reset -/

/-- The registers after reset meet the invariant, whatever the unspecified ones hold. -/
theorem Engine.consistent_afterReset (T : Tables) (c d : HalfKey) (rk : Vector RoundKey 16) (l r : HalfBlock)
    (din dout : Block) : (Engine.afterReset c d rk l r din dout).Consistent T :=
  Engine.consistent_of_idle rfl (fun _ => ⟨rfl, rfl⟩) (fun _ => rfl) (fun h => by cases h) (fun h => by cases h)

/-- Settles O37: reset leaves phase `IDLE`, no error and no valid store. -/
theorem invariantHoldsAfterReset : Obligations.InvariantHoldsAfterReset := by
  intro c d rk l r din dout s hs
  rw [State.Inv, hs]
  exact Engine.consistent_afterReset tables c d rk l r din dout

/-! ### The accept step -/

section

variable {T : Tables} {e : Engine}

/-- A refusal in phase `IDLE` keeps the invariant. -/
theorem Engine.Consistent.fail (h : e.Consistent T) (hidle : e.PH = .idle) {code : ErrorCode} {eop : Bool}
    (hoperand : code ≠ .invalidInputLength → eop = false) : (e.fail code eop).Consistent T :=
  Engine.consistent_of_idle hidle (fun herr => by cases herr) hoperand (fun _ => rfl) h.validSchedule

/-- A start leaves no error. -/
theorem Engine.noError_start (ks dr rev : Bool) (k b : Option Block) : (e.start T ks dr rev k b).NoError := by
  obtain ⟨herr, hcode, hoperand, -⟩ := e.start_error_fields T ks dr rev k b
  exact ⟨herr, hcode, hoperand⟩

/-- A start with a key operand meets the invariant: no round of its schedule is done. -/
theorem Engine.consistent_start_key (k : Block) (b : Option Block) (rev : Bool) :
    (e.start T true b.isSome rev (some k) b).Consistent T :=
  Engine.consistent_of_ks (by simp) (by simp) (by simp) (Engine.noError_start ..) (by simp +contextual)
    ⟨k, by simp, fun j hj => by simp at hj⟩

/-- A start without a key operand keeps the invariant, if the store is valid. -/
theorem Engine.Consistent.start_stored (h : e.Consistent T) (hvalid : e.KV = true) (b : Block) (ks rev : Bool) :
    (e.start T ks true rev none (some b)).Consistent T :=
  Engine.consistent_of_driver (by simp) (by simp [hvalid]) (Engine.noError_start ..)
    (by simpa using h.validSchedule hvalid) (by simp) (by simp) (by simp)

/-- The accept step in phase `IDLE` keeps the invariant. -/
theorem Engine.Consistent.accept (h : e.Consistent T) (hidle : e.PH = .idle) (cmd : BitVec 3) (key data : Bytes) :
    (e.accept T cmd key data).Consistent T := by
  obtain ⟨-, heq⟩ | ⟨code, eop, -, hoperand, heq⟩ | ⟨k, b, hk, hb, hvalid, hsome, heq⟩ := accept_cases T cmd key data e
  · rwa [heq]
  · rw [heq]
    exact h.fail hidle hoperand
  · rw [heq, ← isSome_of_operandBits hk, ← isSome_of_operandBits hb]
    cases k with
    | some k => exact Engine.consistent_start_key k b _
    | none =>
      obtain ⟨b, rfl⟩ : ∃ b', b = some b' := Option.isSome_iff_exists.mp (by simpa using hsome)
      exact h.start_stored (hvalid rfl) b _ _

/-! ### The sequencer's steps -/

/-- One more round of a key's schedule: its halves, and the entries up to its own. -/
theorem ksRound_schedule {k : Block} {i : Fin 16} (hhalves : (e.C, e.D) = halvesAfter T k i.castSucc)
    (hkeys : ∀ j : Fin 16, j.val < i.val → e.RK[j] = (keySchedule T k)[j]) :
    ((e.ksRound T i).C, (e.ksRound T i).D) = halvesAfter T k i.succ ∧
    ∀ j : Fin 16, j.val < i.val + 1 → (e.ksRound T i).RK[j] = (keySchedule T k)[j] := by
  have hnext : rotateHalves T i (e.C, e.D) = halvesAfter T k i.succ := by rw [hhalves, halvesAfter_succ]
  refine ⟨by rw [Engine.ksRound_C, Engine.ksRound_D, hnext], fun j hj => ?_⟩
  rw [Engine.ksRound_RK, hnext, ← keySchedule_get]
  by_cases hij : i = j
  · subst hij
    exact Vector.getElem_set_self _
  · have hne : i.val ≠ j.val := fun h => hij (Fin.ext h)
    exact (Vector.getElem_set_ne _ _ hne).trans (hkeys j (by omega))

/-- A KS step keeps the invariant: the last one completes the store. -/
theorem Engine.Consistent.ksRound (h : e.Consistent T) {i : Fin 16} (hph : e.PH = .ks) (hround : e.N = i.castSucc) :
    (e.ksRound T i).Consistent T := by
  obtain ⟨k, hhalves, hkeys⟩ := h.partialSchedule hph
  rw [hround] at hhalves hkeys
  obtain ⟨hhalves', hkeys'⟩ := ksRound_schedule hhalves hkeys
  have herror : (e.ksRound T i).NoError := by
    simpa [Engine.NoError] using h.noError (by simp [hph])
  by_cases hlast : i.val = 15
  · have hstore : ∃ k : Block, (e.ksRound T i).RK = keySchedule T k :=
      ⟨k, Vector.ext fun j hj => hkeys' ⟨j, hj⟩ (by simp [hlast, hj])⟩
    cases hdr : e.DRF with
    | true =>
      exact Engine.consistent_of_driver (by simp [hlast, hdr]) (by simp [hlast, hdr, h.driverPending hph hdr]) herror
        hstore (by simp [hlast, hdr]) (by simp [hlast, hdr]) (by simp [hlast, hdr])
    | false =>
      exact Engine.consistent_of_idle (by simp [hlast, hdr]) (fun _ => herror.noCode) (fun _ => herror.noOperand)
        (fun he => by rw [herror.noErr] at he; cases he) (fun _ => hstore)
  · exact Engine.consistent_of_ks (by simp [hlast, hph]) (by simp; omega) (by simp [hlast, h.ksPhase hph]) herror
      (by simpa using h.driverPending hph) ⟨k, by rwa [Engine.ksRound_N], fun j hj => hkeys' j (by simpa using hj)⟩

/-- The LD step keeps the invariant: it begins with the halves of no round. -/
theorem Engine.Consistent.load (h : e.Consistent T) (hph : e.PH = .ld) : (e.load T).Consistent T := by
  obtain ⟨hdrf, hkv, hdv⟩ := h.driverPhases (.inl hph)
  exact Engine.consistent_of_driver (by simp) ⟨hdrf, hkv, hdv⟩ (h.noError (by simp [hph])) (h.validSchedule hkv)
    (by simp) (by simp) (by simp)

/-- An RND step keeps the invariant. -/
theorem Engine.Consistent.rndRound (h : e.Consistent T) {i : Fin 16} (hph : e.PH = .rnd) (hround : e.N = i.castSucc) :
    (e.rndRound T i).Consistent T := by
  have hhalves : (e.L, e.R) = roundsAfter T e.DIN e.RK e.REVF i.castSucc := by
    rw [← hround]
    exact h.driverProgress (.inl hph)
  obtain ⟨hdrf, hkv, hdv⟩ := h.driverPhases (.inr (.inl hph))
  refine Engine.consistent_of_driver ?_ (by simp [hdrf, hkv, hdv]) ?_ (by simpa using h.validSchedule hkv) ?_ ?_ ?_
  · by_cases hlast : i.val = 15 <;> simp [hlast, hph]
  · simpa [Engine.NoError] using h.noError (by simp [hph])
  · by_cases hlast : i.val = 15
    · simp [hlast]
    · simp [hlast]; omega
  · by_cases hlast : i.val = 15
    · exact fun _ => Fin.ext (by simp [hlast])
    · simp [hlast, hph]
  · exact fun _ => by simp [hhalves, roundsAfter_succ]

/-- The FIN step keeps the invariant. -/
theorem Engine.Consistent.finish (h : e.Consistent T) : (e.finish T).Consistent T :=
  Engine.consistent_of_idle rfl h.noErrorNoCode h.operandOnlyForLength h.errorIsSticky h.validSchedule

/-- Every sequencer step keeps the invariant. -/
theorem Engine.Consistent.sequencerStep {e' : Engine} (h : e.Consistent T) (hstep : SequencerStep T e e') :
    e'.Consistent T := by
  cases hstep with
  | ks i hph hround => exact h.ksRound hph hround
  | ld hph => exact h.load hph
  | rnd i hph hround => exact h.rndRound hph hround
  | fin => exact h.finish

end

/-- Settles O38: reset establishes the invariant, and the accept step and each sequencer step keep it. -/
theorem stepKeepsInvariant : Obligations.StepKeepsInvariant := by
  intro s t hinv h
  by_cases hreset : ∃ rest, s.port = .reset :: rest
  · obtain ⟨rest, hport⟩ := hreset
    cases (step_of_reset hport).symm.trans h
    exact Engine.consistent_afterReset tables _ _ _ _ _ _ _
  rw [State.Inv]
  obtain heq | ⟨cmd, key, data, -, -, hidle, heq⟩ | hseq := step_eng_cases h fun rest hport => hreset ⟨rest, hport⟩
  · rwa [heq]
  · rw [heq]
    exact Engine.Consistent.accept hinv hidle cmd key data
  · exact Engine.Consistent.sequencerStep hinv hseq

/-! ### Progress -/

/-- Fewer than sixteen rounds done are the rounds before the next one. -/
theorem exists_castSucc_of_le {n : Fin 17} (h : n.val ≤ 15) : ∃ i : Fin 16, n = i.castSucc :=
  ⟨⟨n.val, by omega⟩, rfl⟩

/-- Under the invariant a busy engine's sequencer step meets its precondition. -/
theorem Engine.Consistent.exists_sequencerStep {T : Tables} {e : Engine} (h : e.Consistent T) (hbusy : e.PH ≠ .idle) :
    ∃ e', SequencerStep T e e' := by
  cases hph : e.PH with
  | idle => exact absurd hph hbusy
  | ks =>
    obtain ⟨i, hi⟩ := exists_castSucc_of_le (h.roundsBelow16 (.inl hph))
    exact ⟨_, .ks i hph hi⟩
  | ld => exact ⟨_, .ld hph⟩
  | rnd =>
    obtain ⟨i, hi⟩ := exists_castSucc_of_le (h.roundsBelow16 (.inr hph))
    exact ⟨_, .rnd i hph hi⟩
  | fin => exact ⟨_, .fin hph (h.finAfter16 hph)⟩

/-- Under the invariant the sequencer's turn answers a next state. -/
theorem exists_sequencerExec {s : State} (hinv : s.Inv) : ∃ t, sequencerExec s = .next t := by
  by_cases hidle : s.eng.PH = .idle
  · exact ⟨s, by rw [sequencerExec, hidle]⟩
  · obtain ⟨e', he'⟩ := Engine.Consistent.exists_sequencerStep hinv hidle
    exact ⟨_, sequencerExec_of_step he'⟩

/-- Under the invariant every step answers a next state. -/
theorem exists_step {s : State} (hinv : s.Inv) : ∃ t, step s = .next t := by
  rw [step_eq_perform]
  cases (nextAction s.eng.busy s.port).1 with
  | pass => exact exists_sequencerExec (s := { s with port := _ }) hinv
  | command | read | reset | untilIdle => exact ⟨_, rfl⟩

/-- Settles O39: each step answers a next state and keeps the invariant; by induction on their number. -/
theorem machineNeverStops : Obligations.MachineNeverStops := by
  intro s k hinv
  induction k generalizing s with
  | zero => exact ⟨s, rfl⟩
  | succ k ih =>
    obtain ⟨t, ht⟩ := exists_step hinv
    obtain ⟨u, hu⟩ := ih t (stepKeepsInvariant s t hinv ht)
    exact ⟨u, (steps_succ ht k).trans hu⟩

end Sys2Proof.Machine
end

section
/-! PROOFS. The control registers (44_block_driver.md R176): each operation's effect on them is decided by them and by
the number of operand bytes. -/

namespace Sys2Proof.Machine

/-! ### The sequencer -/

/-- What the step of a phase does to the control registers. -/
def Control.next (c : Control) : Control :=
  match c.PH with
  | .idle => c
  | .ks =>
    { c with
      N := c.N + 1
      KV := if c.N.val = 15 then true else c.KV
      PH := if c.N.val = 15 then (if c.DRF then .ld else .idle) else .ks }
  | .ld => { c with N := 0, PH := .rnd }
  | .rnd => { c with N := c.N + 1, PH := if c.N.val = 15 then .fin else .rnd }
  | .fin => { c with DV := true, PH := .idle }

@[simp] theorem Engine.control_PH (e : Engine) : e.control.PH = e.PH := rfl

/-- A sequencer step moves the control registers without looking at key or data bits. -/
theorem SequencerStep.control_eq {T : Tables} {e e' : Engine} (h : SequencerStep T e e') :
    e'.control = e.control.next := by
  cases h with
  | ks i hph hround => simp [Control.next, Engine.control, hph, hround]
  | ld hph => simp [Control.next, Engine.control, hph]
  | rnd i hph hround => simp [Control.next, Engine.control, hph, hround]
  | fin hph => simp [Control.next, Engine.control, hph]

/-- So does the sequencer's turn, and it leaves the port alone. -/
theorem sequencerExec_control {s t : State} (h : sequencerExec s = .next t) :
    t.eng.control = s.eng.control.next ∧ t.port = s.port := by
  obtain ⟨hidle, rfl⟩ | ⟨e', hstep, rfl⟩ := sequencerExec_next h
  · simp [Control.next, hidle]
  · exact ⟨hstep.control_eq, rfl⟩

/-! ### The accept step -/

section

variable {T : Tables} {e e' : Engine} (hcontrol : e.control = e'.control)
include hcontrol

/-- A refusal's effect on the control registers. -/
theorem fail_control_congr (code : ErrorCode) (eop : Bool) :
    (e.fail code eop).control = (e'.fail code eop).control := by
  simp only [Engine.control, Control.mk.injEq] at hcontrol ⊢
  simp [hcontrol]

/-- A start's effect on the control registers, whatever the bits of its operands. -/
theorem start_control_congr (ks dr rev : Bool) {k k' b b' : Option Block} (hk : k.isSome = k'.isSome)
    (hb : b.isSome = b'.isSome) : (e.start T ks dr rev k b).control = (e'.start T ks dr rev k' b').control := by
  simp only [Engine.control, Control.mk.injEq] at hcontrol ⊢
  cases k <;> cases k' <;> simp_all

/-- The accept step's effect on the control registers, whatever the bytes of its operands. -/
theorem accept_control_congr (cmd : BitVec 3) {key key' data data' : Bytes} (hkey : key.length = key'.length)
    (hdata : data.length = data'.length) :
    (e.accept T cmd key data).control = (e'.accept T cmd key' data').control := by
  by_cases hnop : cmd = 0b000#3
  · rwa [hnop, accept_nop, accept_nop]
  by_cases hill : cmd = 0b001#3 ∨ cmd = 0b101#3
  · rw [accept_reserved hill, accept_reserved hill]
    exact fail_control_congr hcontrol _ _
  by_cases hbad : cmdKS cmd = true ∧ key.length ≠ 8
  · have hbad' : cmdKS cmd = true ∧ key'.length ≠ 8 := hkey ▸ hbad
    rw [accept_of_bad_key T hnop hill (operandBits_of_bad hbad),
      accept_of_bad_key T hnop hill (operandBits_of_bad hbad')]
    exact fail_control_congr hcontrol _ _
  have hgood' : ¬(cmdKS cmd = true ∧ key'.length ≠ 8) := hkey ▸ hbad
  obtain ⟨k, hk, hsome⟩ := exists_operandBits_of_not_bad hbad
  obtain ⟨k', hk', hsome'⟩ := exists_operandBits_of_not_bad hgood'
  by_cases hbad : cmdDR cmd = true ∧ data.length ≠ 8
  · have hbad' : cmdDR cmd = true ∧ data'.length ≠ 8 := hdata ▸ hbad
    rw [accept_of_bad_data T hnop hill hk (operandBits_of_bad hbad),
      accept_of_bad_data T hnop hill hk' (operandBits_of_bad hbad')]
    exact fail_control_congr hcontrol _ _
  have hgood' : ¬(cmdDR cmd = true ∧ data'.length ≠ 8) := hdata ▸ hbad
  obtain ⟨b, hb, hbsome⟩ := exists_operandBits_of_not_bad hbad
  obtain ⟨b', hb', hbsome'⟩ := exists_operandBits_of_not_bad hgood'
  have hvalid : e.KV = e'.KV := congrArg Control.KV hcontrol
  rw [accept_of_good_operands T hnop hill hk hb, accept_of_good_operands T hnop hill hk' hb', hvalid]
  split
  · exact fail_control_congr hcontrol _ _
  · exact start_control_congr hcontrol _ _ _ (hsome.trans hsome'.symm) (hbsome.trans hbsome'.symm)

end

/-! ### The host's side -/

/-- Operands blotted out alike have the same length. -/
theorem length_eq_of_blotted {a b : Bytes} (h : (a.map fun _ => (0 : Byte)) = b.map fun _ => 0) :
    a.length = b.length := by
  simpa using congrArg List.length h

/-- Two operations of one shape are the same operation, or the same command with operands of the same lengths. -/
theorem HostOp.eq_or_command_of_shape_eq {op op' : HostOp} (h : op.shape = op'.shape) :
    (op = op' ∧ ∀ cmd key data, op ≠ .command cmd key data) ∨
    ∃ cmd key key' data data', op = .command cmd key data ∧ op' = .command cmd key' data' ∧
      key.length = key'.length ∧ data.length = data'.length := by
  cases op <;> cases op' <;> simp only [HostOp.shape, reduceCtorEq] at h
  case command.command cmd key data cmd' key' data' =>
    simp only [HostOp.command.injEq] at h
    obtain ⟨rfl, hkey, hdata⟩ := h
    exact .inr ⟨cmd, key, key', data, data', rfl, rfl, length_eq_of_blotted hkey, length_eq_of_blotted hdata⟩
  case read.read rsel rsel' =>
    cases h
    exact .inl ⟨rfl, nofun⟩
  all_goals exact .inl ⟨rfl, nofun⟩

/-- Whether the host waits is a matter of the shape of its operations. -/
theorem waitsForIdle_map_shape (port : List HostOp) : waitsForIdle (port.map HostOp.shape) = waitsForIdle port := by
  cases port with
  | nil => rfl
  | cons op rest => cases op <;> rfl

/-- So is what a step does. -/
theorem nextAction_map_shape (busy : Bool) (port : List HostOp) :
    nextAction busy (port.map HostOp.shape) =
      ((nextAction busy port).1.shape, (nextAction busy port).2.map HostOp.shape) := by
  cases port with
  | nil => rfl
  | cons op rest =>
    rw [List.map_cons, nextAction, ← List.map_cons, waitsForIdle_map_shape, nextAction]
    split <;> rfl

/-- An action moves the control registers alike on states that agree in them, for operations of one shape. -/
theorem perform_control_congr {s s' t t' : State} {op op' : HostOp} (hcontrol : s.eng.control = s'.eng.control)
    (hport : s.port.map HostOp.shape = s'.port.map HostOp.shape) (hop : op.shape = op'.shape)
    (h : s.perform op = .next t) (h' : s'.perform op' = .next t') :
    t.eng.control = t'.eng.control ∧ t.port.map HostOp.shape = t'.port.map HostOp.shape := by
  obtain ⟨rfl, hcommand⟩ | ⟨cmd, key, key', data, data', rfl, rfl, hkey, hdata⟩ :=
    HostOp.eq_or_command_of_shape_eq hop
  · cases op with
    | command cmd key data => exact absurd rfl (hcommand cmd key data)
    | read rsel => cases h; cases h'; exact ⟨hcontrol, hport⟩
    | reset => cases h; cases h'; exact ⟨rfl, hport⟩
    | untilIdle => cases h; cases h'; exact ⟨hcontrol, hport⟩
    | pass =>
      obtain ⟨ht, htport⟩ := sequencerExec_control h
      obtain ⟨ht', htport'⟩ := sequencerExec_control h'
      rw [ht, ht', hcontrol, htport, htport']
      exact ⟨rfl, hport⟩
  · cases h
    cases h'
    exact ⟨accept_control_congr hcontrol cmd hkey hdata, hport⟩

/-- Settles O46: the action and its effect on the control registers are functions of these and of the port's shape. -/
theorem controlIgnoresKeyAndData : Obligations.ControlIgnoresKeyAndData := by
  intro s s' t t' hcontrol hport h h'
  have hbusy : s.eng.busy = s'.eng.busy := congrArg (fun c : Control => c.PH != .idle) hcontrol
  have haction := congrArg (nextAction s.eng.busy) hport
  rw [nextAction_map_shape, nextAction_map_shape, Prod.mk.injEq] at haction
  obtain ⟨hop, hrest⟩ := haction
  rw [step_eq_perform] at h h'
  rw [← hbusy] at h'
  exact perform_control_congr (s := { s with port := (nextAction s.eng.busy s.port).2 })
    (s' := { s' with port := (nextAction s.eng.busy s'.port).2 }) hcontrol hrest hop h h'

end Sys2Proof.Machine
end

section
/-! PROOFS. Runs (44_block_driver.md R170, 70_reset_and_hazards.md R229): how runs compose, and how a busy engine whose
host waits counts down to phase `IDLE`. -/

namespace Sys2Proof.Machine

/-! ### Composition -/

/-- A run is its first part, then the rest. -/
theorem steps_add {m n : Nat} {s t : State} (h : steps m s = .next t) : steps (m + n) s = steps n t := by
  induction m generalizing s with
  | zero => cases h; rw [Nat.zero_add]
  | succ m ih =>
    cases hstep : step s with
    | next s' =>
      rw [steps_succ hstep] at h
      rw [Nat.succ_add, steps_succ hstep, ih h]
    | fault r => simp [steps, hstep] at h
    | refused r => simp [steps, hstep] at h

/-- A run of one step. -/
theorem steps_one {s t : State} (h : step s = .next t) : steps 1 s = .next t := steps_succ h 0

/-- An idle engine with nothing presented stays as it is, however long it runs. -/
theorem steps_of_quiet {s : State} (hport : s.port = []) (hidle : s.eng.PH = .idle) (k : Nat) :
    steps k s = .next s := by
  induction k with
  | zero => rfl
  | succ k ih => rw [steps_succ (step_of_quiet hport hidle), ih]

/-! ### The sequencer under a waiting host -/

/-- A sequencer step is a step of a busy engine. -/
theorem SequencerStep.busy {T : Tables} {e e' : Engine} (h : SequencerStep T e e') : e.PH ≠ .idle := by
  cases h <;> simp [*]

/-- While the host waits, the step is the sequencer's. -/
theorem step_of_sequencerStep {s : State} {e' : Engine} (hwait : waitsForIdle s.port = true)
    (h : SequencerStep tables s.eng e') : step s = .next { s with eng := e' } := by
  rw [step_of_waiting hwait h.busy, sequencerExec_of_step h]

/-- A sequencer step is one of the steps still to take. -/
theorem SequencerStep.stepsToIdle_eq {T : Tables} {e e' : Engine} (h : SequencerStep T e e') :
    e'.stepsToIdle + 1 = e.stepsToIdle := by
  cases h with
  | ks i hph hround =>
    by_cases hlast : i.val = 15
    · cases hdr : e.DRF <;> simp [Engine.stepsToIdle, hph, hround, hlast, hdr]
    · simp [Engine.stepsToIdle, hph, hround, hlast]
      omega
  | ld hph => simp [Engine.stepsToIdle, hph]
  | rnd i hph hround =>
    by_cases hlast : i.val = 15
    · simp [Engine.stepsToIdle, hph, hround, hlast]
    · simp [Engine.stepsToIdle, hph, hround, hlast]
      omega
  | fin hph => simp [Engine.stepsToIdle, hph]

/-- No steps are left in phase `IDLE`. -/
theorem Engine.stepsToIdle_of_idle {e : Engine} (hidle : e.PH = .idle) : e.stepsToIdle = 0 := by
  simp [Engine.stepsToIdle, hidle]

/-- Under the invariant, with a waiting host, the count goes down by one in each step. -/
theorem steps_countdown {s : State} (hinv : s.Inv) (hwait : waitsForIdle s.port = true) {m : Nat}
    (hm : m ≤ s.eng.stepsToIdle) :
    ∃ t, steps m s = .next t ∧ t.Inv ∧ t.eng.stepsToIdle = s.eng.stepsToIdle - m ∧ t.port = s.port ∧
      t.answers = s.answers := by
  induction m generalizing s with
  | zero => exact ⟨s, rfl, hinv, rfl, rfl, rfl⟩
  | succ m ih =>
    have hbusy : s.eng.PH ≠ .idle := fun hidle => by
      rw [Engine.stepsToIdle_of_idle hidle] at hm
      omega
    obtain ⟨e', he'⟩ := Engine.Consistent.exists_sequencerStep hinv hbusy
    have hstep := step_of_sequencerStep hwait he'
    have hcount := he'.stepsToIdle_eq
    obtain ⟨t, ht, htinv, htcount, htport, htanswers⟩ :=
      ih (s := { s with eng := e' }) (stepKeepsInvariant s _ hinv hstep) hwait (by simp only; omega)
    refine ⟨t, (steps_succ hstep m).trans ht, htinv, ?_, htport, htanswers⟩
    rw [htcount]
    simp only
    omega

/-- A count of zero is phase `IDLE`. -/
theorem Engine.idle_of_stepsToIdle {e : Engine} (hzero : e.stepsToIdle = 0)
    (hround : e.PH = .ks ∨ e.PH = .rnd → e.N.val ≤ 15) : e.PH = .idle := by
  cases hph : e.PH with
  | idle => rfl
  | ks =>
    have hle := hround (.inl hph)
    simp only [Engine.stepsToIdle, hph] at hzero
    omega
  | ld => simp [Engine.stepsToIdle, hph] at hzero
  | rnd =>
    have hle := hround (.inr hph)
    simp only [Engine.stepsToIdle, hph] at hzero
    omega
  | fin => simp [Engine.stepsToIdle, hph] at hzero

/-- The count after an accept in phase `IDLE`. -/
theorem accept_stepsToIdle (T : Tables) (cmd : BitVec 3) (key data : Bytes) {e : Engine} (hidle : e.PH = .idle) :
    (e.accept T cmd key data).stepsToIdle =
      if (e.accept T cmd key data).PH = .idle then 0
      else if cmdKS cmd then (if cmdDR cmd then 34 else 16) else 18 := by
  obtain ⟨-, heq⟩ | ⟨code, eop, -, -, heq⟩ | ⟨k, b, hk, -, -, -, heq⟩ := accept_cases T cmd key data e
  · rw [heq, Engine.stepsToIdle_of_idle hidle, if_pos hidle]
  · rw [heq, Engine.stepsToIdle_of_idle (e := e.fail code eop) hidle, if_pos (by simpa using hidle)]
  · rw [heq, ← isSome_of_operandBits hk]
    cases k with
    | none => simp [Engine.stepsToIdle]
    | some k => cases cmdDR cmd <;> simp [Engine.stepsToIdle]

/-- Settles O47: each sequencer step is one of the count, and an accept starts the count of its command. -/
theorem everyCommandEnds : Obligations.EveryCommandEnds := by
  refine ⟨fun s hinv hwait m hm => ?_, fun e => Engine.idle_of_stepsToIdle, fun cmd key data s t hidle h => ?_⟩
  · obtain ⟨t, ht, -, hcount, hport, hanswers⟩ := steps_countdown hinv hwait hm
    exact ⟨t, ht, hcount, hport, hanswers⟩
  · rw [exec_decodeCommand, acceptCommand_of_idle hidle] at h
    cases h
    exact accept_stepsToIdle tables cmd key data hidle

end Sys2Proof.Machine
end

section
/-! PROOFS. Whole commands (42_key_schedule.md R128, R130, 44_block_driver.md R166 to R168, R175): the sixteen rounds of
a phase in one description each, then accept, key schedule and driver one after the other. -/

namespace Sys2Proof.Machine

/-! ### The rounds of a phase -/

/-- A store with the first `n` entries of the schedule of `k` written. -/
def scheduleUpTo (T : Tables) (k : Block) (n : Nat) (K : Vector RoundKey 16) : Vector RoundKey 16 :=
  Vector.ofFn fun j => if j.val < n then (keySchedule T k)[j] else K[j]

section

variable (T : Tables) (k : Block) (K : Vector RoundKey 16)

@[simp] theorem scheduleUpTo_zero : scheduleUpTo T k 0 K = K := by
  simp [scheduleUpTo]

@[simp] theorem scheduleUpTo_all : scheduleUpTo T k 16 K = keySchedule T k :=
  Vector.ext fun j hj => by simp [scheduleUpTo]

/-- Writing the entry of the next round. -/
theorem scheduleUpTo_set (i : Fin 16) :
    (scheduleUpTo T k i.val K).set i.val (keySchedule T k)[i] = scheduleUpTo T k (i.val + 1) K := by
  refine Vector.ext fun j hj => ?_
  rw [scheduleUpTo, scheduleUpTo, Vector.getElem_set, Vector.getElem_ofFn, Vector.getElem_ofFn]
  by_cases hij : i.val = j
  · subst hij
    rw [if_pos rfl, if_pos (Nat.lt_succ_self _)]
  · have hlt : j < i.val ↔ j < i.val + 1 := by omega
    simp only [hij, if_false, hlt]

end

/-- The engine after `n` rounds of the schedule of `k`. -/
def Engine.afterKeyRounds (T : Tables) (k : Block) (n : Fin 17) (e : Engine) : Engine :=
  { e with
    C := (halvesAfter T k n).1
    D := (halvesAfter T k n).2
    RK := scheduleUpTo T k n.val e.RK
    N := n
    KV := decide (n.val = 16)
    PH := if n.val = 16 then (if e.DRF then .ld else .idle) else .ks }

/-- The engine after `n` rounds of the driver on its operand. -/
def Engine.afterDriverRounds (T : Tables) (n : Fin 17) (e : Engine) : Engine :=
  { e with
    L := (roundsAfter T e.DIN e.RK e.REVF n).1
    R := (roundsAfter T e.DIN e.RK e.REVF n).2
    N := n
    PH := if n.val = 16 then .fin else .rnd }

section

variable (T : Tables) (k : Block) (e : Engine)

/-- No round of the schedule is done when a command with a key operand has started. -/
theorem Engine.afterKeyRounds_zero (dr rev : Bool) (b : Option Block) :
    (e.start T true dr rev (some k) b).afterKeyRounds T k 0 = e.start T true dr rev (some k) b := by
  cases b <;> simp [Engine.afterKeyRounds, Engine.start, Engine.clearError]

/-- A KS step is the next round of the schedule. -/
theorem Engine.ksRound_afterKeyRounds (i : Fin 16) :
    (e.afterKeyRounds T k i.castSucc).ksRound T i = e.afterKeyRounds T k i.succ := by
  have hi : i.val ≠ 16 := by omega
  have hnext : rotateHalves T i (halvesAfter T k i.castSucc) = halvesAfter T k i.succ := (halvesAfter_succ T k i).symm
  rw [Engine.ksRound_eq]
  simp only [Engine.afterKeyRounds, hnext, ← keySchedule_get, Fin.val_castSucc, Fin.val_succ, hi, if_false,
    scheduleUpTo_set]
  simp only [Engine.mk.injEq, true_and, and_true]
  by_cases hlast : i.val + 1 = 16 <;> simp [hlast]

/-- The LD step begins with no round of the driver. -/
theorem Engine.load_eq_afterDriverRounds : e.load T = e.afterDriverRounds T 0 := by
  simp [Engine.load, Engine.afterDriverRounds]

/-- An RND step is the next round of the driver. -/
theorem Engine.rndRound_afterDriverRounds (i : Fin 16) :
    (e.afterDriverRounds T i.castSucc).rndRound T i = e.afterDriverRounds T i.succ := by
  have hi : i.val ≠ 16 := by omega
  rw [Engine.rndRound_eq]
  simp [Engine.afterDriverRounds, roundsAfter_succ, feistelRound, hi]

end

/-! ### Sixteen steps and the driver run -/

section

variable {s : State} (hwait : waitsForIdle s.port = true)
include hwait

/-- A chain of sequencer steps is a run. -/
theorem steps_of_chain {f : Fin 17 → Engine} (hchain : ∀ i : Fin 16, SequencerStep tables (f i.castSucc) (f i.succ))
    (n : Fin 17) : steps n.val { s with eng := f 0 } = .next { s with eng := f n } := by
  induction n using Fin.induction with
  | zero => rfl
  | succ i ih =>
    exact (steps_add (n := 1) ih).trans
      (steps_one (step_of_sequencerStep (s := { s with eng := f i.castSucc }) hwait (hchain i)))

/-- The key schedule of a command that has started takes 16 steps. -/
theorem steps_keySchedule (k : Block) (b : Option Block) (dr rev : Bool) (e : Engine) :
    steps 16 { s with eng := e.start tables true dr rev (some k) b } =
      .next { s with eng := (e.start tables true dr rev (some k) b).afterKeyRounds tables k 16 } := by
  have hchain (i : Fin 16) : SequencerStep tables
      ((e.start tables true dr rev (some k) b).afterKeyRounds tables k i.castSucc)
      ((e.start tables true dr rev (some k) b).afterKeyRounds tables k i.succ) := by
    rw [← Engine.ksRound_afterKeyRounds]
    have hi : i.val ≠ 16 := by omega
    exact .ks i (by simp [Engine.afterKeyRounds, hi]) rfl
  have hrun := steps_of_chain hwait
    (f := fun n => (e.start tables true dr rev (some k) b).afterKeyRounds tables k n) hchain 16
  rwa [Engine.afterKeyRounds_zero] at hrun

/-- The driver takes 18 steps: LD, sixteen rounds, FIN. -/
theorem steps_driver {e : Engine} (hph : e.PH = .ld) :
    steps 18 { s with eng := e } = .next { s with eng := (e.afterDriverRounds tables 16).finish tables } := by
  have hchain (i : Fin 16) :
      SequencerStep tables (e.afterDriverRounds tables i.castSucc) (e.afterDriverRounds tables i.succ) := by
    rw [← Engine.rndRound_afterDriverRounds]
    have hi : i.val ≠ 16 := by omega
    exact .rnd i (by simp [Engine.afterDriverRounds, hi]) rfl
  have hload : step { s with eng := e } = .next { s with eng := e.afterDriverRounds tables 0 } := by
    rw [← Engine.load_eq_afterDriverRounds]
    exact step_of_sequencerStep (s := { s with eng := e }) hwait (.ld hph)
  have hrounds : steps 16 { s with eng := e.afterDriverRounds tables 0 } =
      .next { s with eng := e.afterDriverRounds tables 16 } := 
    steps_of_chain hwait (f := fun n => e.afterDriverRounds tables n) hchain 16
  have hfinish : step { s with eng := e.afterDriverRounds tables 16 } =
      .next { s with eng := (e.afterDriverRounds tables 16).finish tables } :=
    step_of_sequencerStep (s := { s with eng := e.afterDriverRounds tables 16 }) hwait (.fin rfl rfl)
  calc steps 18 { s with eng := e }
    _ = steps (16 + 1) { s with eng := e.afterDriverRounds tables 0 } := steps_succ hload 17
    _ = steps 1 { s with eng := e.afterDriverRounds tables 16 } := steps_add hrounds
    _ = _ := steps_one hfinish

end

/-- After sixteen rounds the store is complete and the halves are the initial ones (R126). -/
theorem Engine.afterKeyRounds_last (k : Block) (e : Engine) :
    e.afterKeyRounds tables k 16 = { e with
      C := (initialHalves tables k).1
      D := (initialHalves tables k).2
      RK := keySchedule tables k
      N := 16
      KV := true
      PH := if e.DRF then .ld else .idle } := by
  have hall : scheduleUpTo tables k (16 : Fin 17).val e.RK = keySchedule tables k := scheduleUpTo_all tables k e.RK
  rw [Engine.afterKeyRounds, hall, halvesAfter_last]
  rfl

/-! ### The commands -/

section

variable {s : State} {rest : List HostOp} (hidle : s.eng.PH = .idle) (hwait : waitsForIdle rest = true)
include hidle hwait

/-- A whole `KEYGEN`: its accept and the sixteen steps of its schedule. -/
theorem steps_keygen {key data : Bytes} {k : Block} (hkey : bytesToBits key = some k)
    (hport : s.port = .command 0b100#3 key data :: rest) :
    steps 17 s = .next { s with
      port := rest
      eng := (s.eng.start tables true false false (some k) none).afterKeyRounds tables k 16 } := by
  have haccept := step_of_command hport hidle
  rw [accept_keygen hkey] at haccept
  rw [steps_succ haccept 16]
  exact steps_keySchedule (s := { s with port := rest }) hwait k none false false s.eng

/-- A whole `ENCRYPT` or `DECRYPT`: accept, key schedule, driver. -/
theorem steps_crypt_with_key {key data : Bytes} {k b : Block} {rev : Bool} (hkey : bytesToBits key = some k)
    (hdata : bytesToBits data = some b)
    (hport : s.port = .command (if rev then 0b111#3 else 0b110#3) key data :: rest) :
    steps 35 s = .next { s with
      port := rest
      eng := (((s.eng.start tables true true rev (some k) (some b)).afterKeyRounds tables k 16).afterDriverRounds
        tables 16).finish tables } := by
  have haccept := step_of_command hport hidle
  rw [accept_crypt_with_key tables hkey hdata] at haccept
  rw [steps_succ haccept 34,
    steps_add (m := 16) (n := 18) (steps_keySchedule (s := { s with port := rest }) hwait k (some b) true rev s.eng)]
  refine steps_driver (s := { s with port := rest }) hwait ?_
  simp [Engine.afterKeyRounds_last]

/-- A whole `CRYPTF` or `CRYPTR`: accept and driver. -/
theorem steps_crypt_stored {key data : Bytes} {b : Block} {rev : Bool} (hvalid : s.eng.KV = true)
    (hdata : bytesToBits data = some b)
    (hport : s.port = .command (if rev then 0b011#3 else 0b010#3) key data :: rest) :
    steps 19 s = .next { s with
      port := rest
      eng := ((s.eng.start tables false true rev none (some b)).afterDriverRounds tables 16).finish tables } := by
  have haccept := step_of_command hport hidle
  rw [accept_crypt_stored tables hdata rev hvalid] at haccept
  rw [steps_succ haccept 18]
  exact steps_driver (s := { s with port := rest }) hwait (by simp)

end

/-- Settles O48: the run, with its registers written out. -/
theorem keygenRun : Obligations.KeygenRun := by
  intro key data k rest s hidle hkey hport hwait
  rw [steps_keygen hidle hwait hkey hport, Engine.afterKeyRounds_last]
  simp [Engine.start, Engine.clearError, hidle]

/-- Settles O49: the run, with its registers written out. -/
theorem encryptAndDecryptRun : Obligations.EncryptAndDecryptRun := by
  intro rev key data k b rest s hidle hkey hdata hport hwait
  rw [steps_crypt_with_key hidle hwait hkey hdata hport, Engine.afterKeyRounds_last]
  simp [Engine.start, Engine.clearError, Engine.afterDriverRounds, Engine.finish, crypt, hidle]

/-- Settles O50: the run, with its registers written out. -/
theorem cryptfAndCryptrRun : Obligations.CryptfAndCryptrRun := by
  intro rev key data b rest s hidle hvalid hdata hport hwait
  rw [steps_crypt_stored hidle hwait hvalid hdata hport]
  simp [Engine.start, Engine.clearError, Engine.afterDriverRounds, Engine.finish, crypt, hidle]

/-- Settles O51: both runs end with `Crypt` of the block under the schedule of the key. -/
theorem keygenThenCryptEqualsOneCommand : Obligations.KeygenThenCryptEqualsOneCommand := by
  intro rev key data other s hidle hkeylen hdatalen
  obtain ⟨k, hkey⟩ := exists_bytesToBits hkeylen
  obtain ⟨b, hdata⟩ := exists_bytesToBits hdatalen
  have hkeygen := keygenRun key other k [.command (if rev then 0b011#3 else 0b010#3) other data]
    { s with port := [.command 0b100#3 key other, .command (if rev then 0b011#3 else 0b010#3) other data] }
    hidle hkey rfl rfl
  have hboth := encryptAndDecryptRun rev key data k b []
    { s with port := [.command (if rev then 0b111#3 else 0b110#3) key data] } hidle hkey hdata rfl rfl
  exact ⟨_, _, (steps_add (m := 17) (n := 19) hkeygen).trans
    (cryptfAndCryptrRun rev other data b [] _ hidle rfl hdata rfl rfl), hboth, hidle, hidle, rfl, rfl, rfl, rfl⟩

end Sys2Proof.Machine
end

section
/-! PROOFS. The host's pseudo-operations (30_encoding.md R85): a command waits out the one before it, runs to its end,
the host's `WAIT` reads the status, and the reads follow. -/

namespace Sys2Proof.Machine

/-! ### The phases of a call -/

/-- No command takes more than 34 sequencer steps (44_block_driver.md R170). -/
theorem Engine.stepsToIdle_le (e : Engine) : e.stepsToIdle ≤ 34 := by
  unfold Engine.stepsToIdle
  cases e.PH with
  | ks => dsimp only; split <;> omega
  | idle | ld | rnd | fin => dsimp only; omega

/-- An engine that is idle or meets the invariant is idle after at most 34 steps under a waiting host, which is left as
it was. -/
theorem exists_steps_to_idle {s : State} (h : s.eng.PH = .idle ∨ s.Inv) (hwait : waitsForIdle s.port = true) :
    ∃ m ≤ 34, ∃ t, steps m s = .next t ∧ t.eng.PH = .idle ∧ t.port = s.port := by
  obtain hidle | hinv := h
  · exact ⟨0, by omega, s, rfl, hidle, rfl⟩
  · obtain ⟨t, ht, htinv, hcount, hport, -⟩ := steps_countdown hinv hwait le_rfl
    exact ⟨_, s.eng.stepsToIdle_le, t, ht, Engine.idle_of_stepsToIdle (by omega) htinv.roundsBelow16, hport⟩

/-- The host's `WAIT` on an idle engine reads its status word. -/
theorem steps_wait {s : State} (hport : s.port = waitOps) (hidle : s.eng.PH = .idle) :
    steps 2 s = .next { s with port := [], answers := .status s.eng.status :: s.answers } := by
  have hwait : step s = .next { s with port := [.read 0b10001#5] } := step_of_untilIdle hport hidle
  rw [steps_succ hwait]
  exact steps_one (step_of_read (s := { s with port := [.read 0b10001#5] }) rfl (readAccepted_of_idle hidle _))

/-- The reads of a host of an idle engine are answered one after the other. -/
theorem steps_reads {s : State} (hidle : s.eng.PH = .idle) {reads : List (BitVec 5)} {answers : List ReadAnswer}
    (hreads : reads.map (fun rsel => s.eng.returned (decodeRead rsel)) = answers.map some)
    (hport : s.port = reads.map .read) :
    steps reads.length s = .next { s with port := [], answers := answers.reverse ++ s.answers } := by
  induction reads generalizing s answers with
  | nil =>
    obtain rfl : answers = [] := by simpa using hreads.symm
    rw [List.map_nil] at hport
    rw [List.reverse_nil, List.nil_append, ← hport]
    rfl
  | cons rsel reads ih =>
    obtain ⟨a, answers, rfl, ha, hreads⟩ := List.map_eq_cons_iff.mp hreads.symm
    have hstep := step_of_read hport (readAccepted_of_idle hidle rsel)
    rw [show s.eng.returned (decodeRead rsel) = some a from ha.symm] at hstep
    have hrest := ih (s := { s with port := reads.map .read, answers := a :: s.answers }) hidle hreads.symm rfl
    exact (steps_succ hstep reads.length).trans (hrest.trans (by simp))

/-! ### The call -/

section

variable {s : State} {cmd : BitVec 3} {key data : Bytes}

/-- What a run of the command of a call, from an idle engine, leaves: an idle engine of which `P` holds. -/
def CommandLeaves (cmd : BitVec 3) (key data : Bytes) (P : Engine → Prop) : Prop :=
  ∀ s : State, s.eng.PH = .idle → s.port = .command cmd key data :: waitOps →
    ∃ r ≤ 35, ∃ e, steps r s = .next { s with port := waitOps, eng := e } ∧ e.PH = .idle ∧ P e

/-- Within its budget a call comes to rest: the command is done and the status is read. -/
theorem exists_steps_callBudget (h : s.eng.PH = .idle ∨ s.Inv) {P : Engine → Prop}
    (hcommand : CommandLeaves cmd key data P) :
    ∃ t, steps callBudget { s with port := .command cmd key data :: waitOps } = .next t ∧ t.eng.PH = .idle ∧
      P t.eng ∧ lastStatus t = some t.eng.status := by
  obtain ⟨m, hm, s0, hheld, hidle0, hport0⟩ :=
    exists_steps_to_idle (s := { s with port := .command cmd key data :: waitOps }) h rfl
  obtain ⟨r, hr, e, hrun, hidle1, hP⟩ := hcommand s0 hidle0 hport0
  have hwait := steps_wait (s := { s0 with port := waitOps, eng := e }) rfl hidle1
  have hbudget : callBudget = m + (r + (2 + (69 - m - r))) := by
    rw [callBudget]
    omega
  have hcall : steps callBudget { s with port := .command cmd key data :: waitOps } =
      .next { s0 with port := [], eng := e, answers := .status e.status :: s0.answers } := by
    rw [hbudget, steps_add hheld, steps_add hrun, steps_add hwait]
    exact steps_of_quiet rfl hidle1 _
  exact ⟨_, hcall, hidle1, hP, rfl⟩

/-- A call whose command is refused reports the status word, with its error code. -/
theorem pseudoCall_error (h : s.eng.PH = .idle ∨ s.Inv)
    (hcommand : CommandLeaves cmd key data fun e => e.ERR = true ∧ e.ECODE = .invalidInputLength)
    (reads : List (BitVec 5)) :
    ∃ w, pseudoCall cmd key data reads s = some (.error w) ∧ w.extractLsb' 4 2 = 0b01#2 := by
  obtain ⟨t, ht, -, ⟨herr, hcode⟩, hstatus⟩ := exists_steps_callBudget h hcommand
  have hbit : t.eng.status.getLsbD 3 = true := (t.eng.status_getLsbD 3).trans herr
  refine ⟨t.eng.status, ?_, ?_⟩
  · simp only [pseudoCall, ht, hstatus, hbit, if_true]
  · rw [Engine.status_extract_ECODE, hcode]
    rfl

/-- A call whose command completes gives the answers of its reads, in order. -/
theorem pseudoCall_ok (h : s.eng.PH = .idle ∨ s.Inv) {reads : List (BitVec 5)} {answers : List ReadAnswer}
    (hcommand : CommandLeaves cmd key data fun e =>
      e.ERR = false ∧ reads.map (fun rsel => e.returned (decodeRead rsel)) = answers.map some) :
    pseudoCall cmd key data reads s = some (.ok answers) := by
  obtain ⟨t, ht, hidle, ⟨herr, hreads⟩, hstatus⟩ := exists_steps_callBudget h hcommand
  have hbit : t.eng.status.getLsbD 3 = false := (t.eng.status_getLsbD 3).trans herr
  have hlength : reads.length = answers.reverse.length := by simpa using congrArg List.length hreads
  have hrun := steps_reads (s := { t with port := reads.map .read }) hidle hreads rfl
  simp only [pseudoCall, ht, hstatus, hbit, hrun, Bool.false_eq_true, if_false]
  rw [hlength, List.take_left, List.reverse_reverse]

/-! ### The three entry points -/

/-- A command with an operand of the wrong length is refused in one step. -/
theorem commandLeaves_length_error (hnop : cmd ≠ 0b000#3) (hlegal : ¬(cmd = 0b001#3 ∨ cmd = 0b101#3))
    (hbad : (cmdKS cmd = true ∧ key.length ≠ 8) ∨ (cmdDR cmd = true ∧ data.length ≠ 8)) :
    CommandLeaves cmd key data fun e => e.ERR = true ∧ e.ECODE = .invalidInputLength := by
  intro s hidle hport
  obtain ⟨eop, hfail⟩ : ∃ eop, s.eng.accept tables cmd key data = s.eng.fail .invalidInputLength eop := by
    by_cases hkey : cmdKS cmd = true ∧ key.length ≠ 8
    · exact ⟨false, accept_of_bad_key tables hnop hlegal (operandBits_of_bad hkey)⟩
    · obtain ⟨k, hk, -⟩ := exists_operandBits_of_not_bad hkey
      exact ⟨true, accept_of_bad_data tables hnop hlegal hk (operandBits_of_bad (hbad.resolve_left hkey))⟩
  have hstep := step_of_command hport hidle
  rw [hfail] at hstep
  exact ⟨1, by omega, _, steps_one hstep, hidle, rfl, rfl⟩

/-- `ENCRYPT` (`DECRYPT`) on 8-byte operands leaves the result of its entry point for `RDOUT`. -/
theorem commandLeaves_crypt {k b : Block} (hkey : bytesToBits key = some k) (hdata : bytesToBits data = some b)
    (rev : Bool) :
    CommandLeaves (if rev then 0b111#3 else 0b110#3) key data fun e => e.ERR = false ∧
      [0b10000#5].map (fun rsel => e.returned (decodeRead rsel)) =
        [ReadAnswer.result (bitsToBytes (crypt tables b (keySchedule tables k) rev))].map some := by
  intro s hidle hport
  refine ⟨35, le_rfl, _, encryptAndDecryptRun rev key data k b waitOps s hidle hkey hdata hport rfl, hidle, rfl, ?_⟩
  have hread : decodeRead 0b10000#5 = .rdout := rfl
  simp [hread, Engine.returned, hidle]

/-- `KEYGEN` on an 8-byte key leaves its schedule for the sixteen `RDRK`. -/
theorem commandLeaves_keygen {k : Block} (hkey : bytesToBits key = some k) :
    CommandLeaves 0b100#3 key data fun e => e.ERR = false ∧
      ((List.range 16).map (BitVec.ofNat 5)).map (fun rsel => e.returned (decodeRead rsel)) =
        ((keySchedule tables k).toList.map ReadAnswer.roundKey).map some := by
  intro s hidle hport
  refine ⟨17, by omega, _, keygenRun key data k waitOps s hidle hkey hport rfl, hidle, rfl, ?_⟩
  refine List.ext_getElem (by simp) fun i hi hi' => ?_
  have hi16 : i < 16 := by simpa using hi
  have hread : ∀ j : Fin 16, decodeRead (BitVec.ofNat 5 j.val) = .rdrk j := by decide
  simp [hread ⟨i, hi16⟩, Engine.returned, hidle]

end

/-- Settles O53: `KEYGEN` with an 8-byte key leaves its schedule in the store, and is refused with any other. -/
theorem pseudoGenerateMatchesKeySchedule : Obligations.PseudoGenerateMatchesKeySchedule := by
  intro key s h
  by_cases hlen : key.length = 8
  · obtain ⟨k, hkey⟩ := exists_bytesToBits hlen
    rw [generateRoundKeys_ok tables hkey]
    exact pseudoCall_ok h (commandLeaves_keygen hkey)
  · rw [generateRoundKeys_error tables hlen]
    exact pseudoCall_error h (commandLeaves_length_error (by decide) (by decide) (.inl ⟨rfl, hlen⟩)) _

/-- Settles O52: the command with 8-byte operands leaves the driver's result, and is refused with any others. -/
theorem pseudoBlockCallsMatchEntryPoints : Obligations.PseudoBlockCallsMatchEntryPoints := by
  intro block key s h
  by_cases hlen : key.length = 8 ∧ block.length = 8
  · obtain ⟨k, hkey⟩ := exists_bytesToBits hlen.1
    obtain ⟨b, hblock⟩ := exists_bytesToBits hlen.2
    rw [encryptBlock, decryptBlock, cryptBlock_ok tables false hkey hblock, cryptBlock_ok tables true hkey hblock]
    exact ⟨pseudoCall_ok h (commandLeaves_crypt hkey hblock false),
      pseudoCall_ok h (commandLeaves_crypt hkey hblock true)⟩
  · have hrefused (cmd : BitVec 3) (hnop : cmd ≠ 0b000#3) (hlegal : ¬(cmd = 0b001#3 ∨ cmd = 0b101#3))
        (hks : cmdKS cmd = true) (hdr : cmdDR cmd = true) :=
      pseudoCall_error (cmd := cmd) h (commandLeaves_length_error hnop hlegal
        ((not_and_or.mp hlen).imp (fun hkey => ⟨hks, hkey⟩) fun hblock => ⟨hdr, hblock⟩)) [0b10000#5]
    rw [encryptBlock, decryptBlock, cryptBlock_error tables false hlen, cryptBlock_error tables true hlen]
    exact ⟨hrefused 0b110#3 (by decide) (by decide) rfl rfl, hrefused 0b111#3 (by decide) (by decide) rfl rfl⟩

end Sys2Proof.Machine
end

section
/-! PROOFS. What the host can never tell apart (10_state.md R40, 93_implementation_defined.md U2): engines that agree in
the control registers and in every data register that a valid flag or the phase says will be read. -/

namespace Sys2Proof.Machine

/-- Two engines look alike: they agree in the control registers, and in each data register as far as it is still to be
read before it is written. -/
structure Engine.Alike (e e' : Engine) : Prop where
  control : e.control = e'.control
  store : e.KV = true → e.RK = e'.RK
  result : e.DV = true → e.DOUT = e'.DOUT
  schedule : e.PH = .ks → (e.C, e.D) = (e'.C, e'.D) ∧ ∀ j : Fin 16, j.val < e.N.val → e.RK[j] = e'.RK[j]
  operand : e.PH ≠ .idle → e.DRF = true → e.DIN = e'.DIN
  halves : e.PH = .rnd ∨ e.PH = .fin → (e.L, e.R) = (e'.L, e'.R)

/-- After reset two engines look alike, whatever the unspecified registers hold. -/
theorem Engine.alike_afterReset (c c' d d' : HalfKey) (rk rk' : Vector RoundKey 16) (l l' r r' : HalfBlock)
    (din din' dout dout' : Block) :
    (Engine.afterReset c d rk l r din dout).Alike (Engine.afterReset c' d' rk' l' r' din' dout') where
  control := rfl
  store h := by cases h
  result h := by cases h
  schedule h := by cases h
  operand h := absurd rfl h
  halves h := by rcases h with h | h <;> cases h

/-! ### What the host reads -/

/-- The status word is decided by the control registers. -/
theorem Engine.status_congr {e e' : Engine} (h : e.control = e'.control) : e.status = e'.status := by
  simp only [Engine.control, Control.mk.injEq] at h
  simp only [Engine.status, Engine.busy, h]

/-- Every read returns the same of engines that look alike. -/
theorem Engine.Alike.returned_eq {e e' : Engine} (h : e.Alike e') (i : Instr) : e.returned i = e'.returned i := by
  have hph : e.PH = e'.PH := congrArg Control.PH h.control
  have hkv : e.KV = e'.KV := congrArg Control.KV h.control
  have hdv : e.DV = e'.DV := congrArg Control.DV h.control
  cases i with
  | rdrk k =>
    simp only [Engine.returned, ← hph, ← hkv]
    cases hvalid : e.KV with
    | false => rfl
    | true => rw [h.store hvalid]
  | rdout =>
    simp only [Engine.returned, ← hph, ← hdv]
    cases hvalid : e.DV with
    | false => rfl
    | true => rw [h.result hvalid]
  | rdstat => exact congrArg (fun w => some (ReadAnswer.status w)) (Engine.status_congr h.control)
  | _ => rfl

/-! ### The accept step -/

/-- With equal `KV` the accept step does the same on two engines: nothing, the same refusal, or the same start. -/
theorem accept_cases_of_KV_eq (T : Tables) (cmd : BitVec 3) (key data : Bytes) {e e' : Engine} (hkv : e.KV = e'.KV) :
    (e.accept T cmd key data = e ∧ e'.accept T cmd key data = e') ∨
    (∃ code eop, e.accept T cmd key data = e.fail code eop ∧ e'.accept T cmd key data = e'.fail code eop) ∨
    (∃ k b, b.isSome = cmdDR cmd ∧
      e.accept T cmd key data = e.start T (cmdKS cmd) (cmdDR cmd) (cmdREV cmd) k b ∧
      e'.accept T cmd key data = e'.start T (cmdKS cmd) (cmdDR cmd) (cmdREV cmd) k b) := by
  by_cases hnop : cmd = 0b000#3
  · subst hnop
    exact .inl ⟨accept_nop .., accept_nop ..⟩
  by_cases hill : cmd = 0b001#3 ∨ cmd = 0b101#3
  · exact .inr (.inl ⟨_, _, accept_reserved hill .., accept_reserved hill ..⟩)
  cases hkey : operandBits (cmdKS cmd) key with
  | none => exact .inr (.inl ⟨_, _, accept_of_bad_key T hnop hill hkey, accept_of_bad_key T hnop hill hkey⟩)
  | some k =>
    cases hdata : operandBits (cmdDR cmd) data with
    | none =>
      exact .inr (.inl ⟨_, _, accept_of_bad_data T hnop hill hkey hdata, accept_of_bad_data T hnop hill hkey hdata⟩)
    | some b =>
      rw [accept_of_good_operands T hnop hill hkey hdata, accept_of_good_operands T hnop hill hkey hdata, hkv]
      by_cases hinvalid : cmdKS cmd = false ∧ cmdDR cmd = true ∧ e'.KV = false
      · rw [if_pos hinvalid, if_pos hinvalid]
        exact .inr (.inl ⟨_, _, rfl, rfl⟩)
      · rw [if_neg hinvalid, if_neg hinvalid]
        exact .inr (.inr ⟨k, b, isSome_of_operandBits hdata, rfl, rfl⟩)

section

variable {T : Tables} {e e' : Engine} (h : e.Alike e')
include h

/-- A start on engines that look alike. -/
theorem Engine.Alike.start (ks rev : Bool) (k b : Option Block) :
    (e.start T ks b.isSome rev k b).Alike (e'.start T ks b.isSome rev k b) := by
  have hcontrol := start_control_congr (T := T) h.control ks b.isSome rev (rfl : k.isSome = _) (rfl : b.isSome = _)
  cases k with
  | some k =>
    exact {
      control := hcontrol
      store := fun hv => by simp at hv
      result := fun hv => by simpa using h.result (by simpa using And.left (by simpa using hv))
      schedule := fun _ => ⟨by simp, fun j hj => by simp at hj⟩
      operand := fun _ hdr => by cases b <;> simp at hdr ⊢
      halves := fun hp => by simp at hp }
  | none =>
    exact {
      control := hcontrol
      store := fun hv => by simpa using h.store (by simpa using hv)
      result := fun hv => by simpa using h.result (by simpa using And.left (by simpa using hv))
      schedule := fun hp => by simp at hp
      operand := fun _ hdr => by cases b <;> simp at hdr ⊢
      halves := fun hp => by simp at hp }

/-- The accept step on engines that look alike. -/
theorem Engine.Alike.accept (cmd : BitVec 3) (key data : Bytes) :
    (e.accept T cmd key data).Alike (e'.accept T cmd key data) := by
  obtain ⟨heq, heq'⟩ | ⟨code, eop, heq, heq'⟩ | ⟨k, b, hused, heq, heq'⟩ :=
    accept_cases_of_KV_eq T cmd key data (congrArg Control.KV h.control) <;> rw [heq, heq']
  · exact h
  · exact ⟨fail_control_congr h.control code eop, h.store, h.result, h.schedule, h.operand, h.halves⟩
  · rw [← hused]
    exact h.start _ _ k b

/-! ### The sequencer -/

/-- A sequencer step of one is a step of the other, and they still look alike. -/
theorem Engine.Alike.sequencerStep {e1 : Engine} (hinv : e.Consistent T) (hstep : SequencerStep T e e1) :
    ∃ e1', SequencerStep T e' e1' ∧ e1.Alike e1' := by
  have hph : e.PH = e'.PH := congrArg Control.PH h.control
  have hn : e.N = e'.N := congrArg Control.N h.control
  have hrevf : e.REVF = e'.REVF := congrArg Control.REVF h.control
  have hcontrol {e1' : Engine} (hstep' : SequencerStep T e' e1') : e1.control = e1'.control := by
    rw [hstep.control_eq, hstep'.control_eq, h.control]
  have hoperand : e.DRF = true → e.DIN = e'.DIN := h.operand hstep.busy
  have hstored (hdriver : e.PH = .ld ∨ e.PH = .rnd ∨ e.PH = .fin) : e.RK = e'.RK := by
    obtain ⟨-, hvalid, -⟩ := hinv.driverPhases hdriver
    exact h.store hvalid
  cases hstep with
  | ks i hks hround =>
    have hstep' : SequencerStep T e' (e'.ksRound T i) := .ks i (hph ▸ hks) (hn ▸ hround)
    obtain ⟨hhalves, hkeys⟩ := h.schedule hks
    have hkeys' (j : Fin 16) (hj : j.val < i.val + 1) : (e.ksRound T i).RK[j] = (e'.ksRound T i).RK[j] := by
      rw [Engine.ksRound_RK, Engine.ksRound_RK, hhalves]
      by_cases hij : i.val = j.val
      · simp [hij]
      · have hold : e.RK[j] = e'.RK[j] := hkeys j (by rw [hround, Fin.val_castSucc]; omega)
        simpa [Vector.getElem_set, hij] using hold
    refine ⟨_, hstep', {
      control := hcontrol hstep'
      store := fun hv => ?_
      result := by simpa using h.result
      schedule := fun _ => ⟨by simp [hhalves], fun j hj => hkeys' j (by simpa using hj)⟩
      operand := fun _ hdr => by simpa using hoperand (by simpa using hdr)
      halves := fun hp => ?_ }⟩
    · by_cases hlast : i.val = 15
      · exact Vector.ext fun j hj => hkeys' ⟨j, hj⟩ (by simp only; omega)
      · have hinvalid : e.KV = false := (hinv.ksPhase hks).2
        simp [hlast, hinvalid] at hv
    · by_cases hlast : i.val = 15
      · cases hdr : e.DRF <;> simp [hlast, hdr] at hp
      · simp [hlast, hks] at hp
  | ld hld =>
    have hstep' : SequencerStep T e' (e'.load T) := .ld (hph ▸ hld)
    have hdrf : e.DRF = true := (hinv.driverPhases (.inl hld)).1
    exact ⟨_, hstep', {
      control := hcontrol hstep'
      store := h.store
      result := h.result
      schedule := fun hp => by simp at hp
      operand := fun _ => hoperand
      halves := fun _ => by simp [hoperand hdrf] }⟩
  | rnd i hrnd hround =>
    have hstep' : SequencerStep T e' (e'.rndRound T i) := .rnd i (hph ▸ hrnd) (hn ▸ hround)
    exact ⟨_, hstep', {
      control := hcontrol hstep'
      store := by simpa using h.store
      result := by simpa using h.result
      schedule := fun hp => by by_cases hlast : i.val = 15 <;> simp [hlast, hrnd] at hp
      operand := fun _ hdr => by simpa using hoperand (by simpa using hdr)
      halves := fun _ => by simp [h.halves (.inl hrnd), hstored (.inr (.inl hrnd)), hrevf] }⟩
  | fin hfin hround =>
    have hstep' : SequencerStep T e' (e'.finish T) := .fin (hph ▸ hfin) (hn ▸ hround)
    exact ⟨_, hstep', {
      control := hcontrol hstep'
      store := h.store
      result := fun _ => by simp [h.halves (.inr hfin)]
      schedule := fun hp => by simp at hp
      operand := fun hp => by simp at hp
      halves := fun hp => by simp at hp }⟩

end

/-! ### The machine -/

/-- Two machines that the host cannot tell apart: engines that look alike, and the host's side the same. -/
structure State.Alike (s s' : State) : Prop where
  eng : s.eng.Alike s'.eng
  port : s.port = s'.port
  answers : s.answers = s'.answers

/-- An action of one machine is one of the other, and they still cannot be told apart. -/
theorem State.Alike.perform {s s' t : State} (h : s.Alike s') (hinv : s.Inv) {op : HostOp}
    (hstep : s.perform op = .next t) : ∃ t', s'.perform op = .next t' ∧ t.Alike t' := by
  cases op with
  | command cmd key data =>
    cases hstep
    exact ⟨_, rfl, h.eng.accept cmd key data, h.port, h.answers⟩
  | read rsel =>
    cases hstep
    exact ⟨_, rfl, h.eng, h.port, by rw [h.eng.returned_eq, h.answers]⟩
  | reset =>
    cases hstep
    exact ⟨_, rfl, Engine.alike_afterReset .., h.port, h.answers⟩
  | untilIdle =>
    cases hstep
    exact ⟨_, rfl, h⟩
  | pass =>
    obtain ⟨hidle, rfl⟩ | ⟨e1, hseq, rfl⟩ := sequencerExec_next hstep
    · have hidle' : s'.eng.PH = .idle := (congrArg Control.PH h.eng.control).symm.trans hidle
      exact ⟨s', by rw [State.perform, sequencerExec, hidle'], h⟩
    · obtain ⟨e1', hseq', halike⟩ := h.eng.sequencerStep hinv hseq
      exact ⟨_, sequencerExec_of_step hseq', halike, h.port, h.answers⟩

/-- Machines that cannot be told apart stay so in a step. -/
theorem State.Alike.step {s s' t : State} (h : s.Alike s') (hinv : s.Inv) (hstep : step s = .next t) :
    ∃ t', step s' = .next t' ∧ t.Alike t' := by
  have hbusy : s.eng.busy = s'.eng.busy := congrArg (fun c : Control => c.PH != .idle) h.eng.control
  rw [step_eq_perform] at hstep
  rw [step_eq_perform, ← hbusy, ← h.port]
  exact State.Alike.perform (s := { s with port := (nextAction s.eng.busy s.port).2 })
    (s' := { s' with port := (nextAction s.eng.busy s.port).2 }) ⟨h.eng, rfl, h.answers⟩ hinv hstep

/-- Under the invariant, machines that cannot be told apart go on and stay so in every run. -/
theorem State.Alike.steps {s s' : State} (h : s.Alike s') (hinv : s.Inv) (k : Nat) :
    ∃ t t', steps k s = .next t ∧ steps k s' = .next t' ∧ t.Alike t' := by
  induction k generalizing s s' with
  | zero => exact ⟨s, s', rfl, rfl, h⟩
  | succ k ih =>
    obtain ⟨u, hu⟩ := exists_step hinv
    obtain ⟨u', hu', halike⟩ := h.step hinv hu
    obtain ⟨t, t', ht, ht', htt'⟩ := ih halike (stepKeepsInvariant s u hinv hu)
    exact ⟨t, t', (steps_succ hu k).trans ht, (steps_succ hu' k).trans ht', htt'⟩

/-- Settles O54: the two machines cannot be told apart after reset, and no step changes that. -/
theorem unspecifiedRegistersAreNeverObserved : Obligations.UnspecifiedRegistersAreNeverObserved := by
  intro c c' d d' rk rk' l l' r r' din din' dout dout' port answers n n' source source' k
  have halike : State.Alike ⟨Engine.afterReset c d rk l r din dout, port, answers, n, source⟩
      ⟨Engine.afterReset c' d' rk' l' r' din' dout', port, answers, n', source'⟩ :=
    ⟨Engine.alike_afterReset .., rfl, rfl⟩
  obtain ⟨t, t', ht, ht', htt'⟩ := halike.steps (Engine.consistent_afterReset tables c d rk l r din dout) k
  exact ⟨t, t', ht, ht', htt'.answers, Engine.status_congr htt'.eng.control⟩

end Sys2Proof.Machine
end
